-- ==== Sys2Proof/Word.lean ====
section
/-! DEFINITION. The word types of the Mezsor 2480. What the manual treats as bits is a bit vector: bytes on
the link and in memory, tick numbers, serials, colours. Counts, sizes and indexes are natural numbers;
parameter values, which the manual clamps and never wraps (R1, R6), are integers. -/

namespace Sys2Proof

/-- A byte of a frame, of the DRAM or of the NV area. -/
abbrev Byte := BitVec 8

/-- A value of the 64-bit timestamp counter: the number of a 100 ps tick (R50). -/
abbrev Tick := BitVec 64

/-- A 32-bit count that wraps: a serial (R79), a capture number (R67), the frame counter (R149). -/
abbrev Word32 := BitVec 32

/-- A 16-bit front-end setting word (R12). -/
abbrev FrontWord := BitVec 16

/-- A 24-bit colour, eight bits each of red, green and blue, red highest (R154). -/
abbrev Colour := BitVec 24

end Sys2Proof
end

