-- ==== Sys2Proof/Syntax.lean ====
section
/-! DEFINITION. The commands of the Mezsor 2480: one constructor per row of spec/opcode_table.json.

The part is a block and has no instruction encoding. A row that is the dispatch event of a request carries no
operand of its own: by R199 the request and its payload are what the hand-over moves, so the command acts
on the request that State holds in hand-over, and that request's tag and payload are its operands (log 11).
A row that is a step between two blocks acts on the event that the sending block has handed on (log 13). A
row that brings something in from outside (a byte, key inputs, knob lines, ADC codes) carries it. -/

namespace Sys2Proof

/-- The commands. Each docstring names the row of the opcode table and its rule. -/
inductive Instr where
  /-- POWER_ON (R24): power is applied. -/
  | powerOn
  /-- HOST_CLOCKED_BYTE (R195): the host clocks one byte in while one comes out. -/
  | hostClockedByte (byte : Byte)
  /-- FRAME_TIMEOUT (R196): the frame timer expires. -/
  | frameTimeout
  /-- ECHO (R203). -/
  | echo
  /-- GET_STATUS (R204). -/
  | getStatus
  /-- RESET (R205). -/
  | reset
  /-- SET_PARAMS (R20). -/
  | setParams
  /-- GET_PARAMS (R22). -/
  | getParams
  /-- SET_PANEL_MODE (R42). -/
  | setPanelMode
  /-- SET_KEY_BINDING (R43). -/
  | setKeyBinding
  /-- SET_KNOB_BINDING (R44). -/
  | setKnobBinding
  /-- SET_KNOB_SHAPE (R45). -/
  | setKnobShape
  /-- SET_LAMP_BINDING (R46). -/
  | setLampBinding
  /-- SET_LAMP (R47). -/
  | setLamp
  /-- GET_PANEL (R48). -/
  | getPanel
  /-- FORCE_TRIGGER (R63). -/
  | forceTrigger
  /-- RUN (R83). -/
  | run
  /-- STOP (R84). -/
  | stop
  /-- SINGLE (R85). -/
  | single
  /-- SET_WATERMARK (R93). -/
  | setWatermark
  /-- SET_INPUT (R72). -/
  | setInput
  /-- CLEAR_PERSIST (R135). -/
  | clearPersist
  /-- WRITE_MASK (R138). -/
  | writeMask
  /-- CLEAR_MASK (R139). -/
  | clearMask
  /-- READ_MASK (R140). -/
  | readMask
  /-- CLEAR_MASK_COUNTS (R146). -/
  | clearMaskCounts
  /-- WRITE_OVERLAY (R157). -/
  | writeOverlay
  /-- FILL_OVERLAY (R158). -/
  | fillOverlay
  /-- WRITE_PALETTE (R155). -/
  | writePalette
  /-- SET_WAVE_AREA (R159). -/
  | setWaveArea
  /-- SAVE (R173). -/
  | save
  /-- RECALL (R174). -/
  | recall
  /-- DELETE (R176). -/
  | delete
  /-- PROTECT (R177). -/
  | protect
  /-- LIST_SLOTS (R178). -/
  | listSlots
  /-- EXPORT_SLOT (R179). -/
  | exportSlot
  /-- IMPORT_SLOT (R180). -/
  | importSlot
  /-- SET_POWER_ON (R181). -/
  | setPowerOn
  /-- HOLD (R182). -/
  | hold
  /-- RELEASE (R183). -/
  | release
  /-- GET_SEGMENTS (R186). -/
  | getSegments
  /-- READ_WAVE (R187). -/
  | readWave
  /-- PROGRAM_COMPLETION (R169): the NV program in progress ends. -/
  | programCompletion
  /-- ERASE_COMPLETION (R170): the NV erase in progress ends. -/
  | eraseCompletion
  /-- REBUILD_DONE (R168): the power-up rebuild has scanned the NV area. -/
  | rebuildDone
  /-- RECALL_CHANGE_SET (R23): the setup controller takes the change set of the recall in flight. -/
  | recallChangeSet
  /-- PANEL_RECALL (R172): the store takes the oldest panel recall handed on. -/
  | panelRecall
  /-- PANEL_CHANGE_SET (R34): the setup controller takes the oldest change set the panel has made. -/
  | panelChangeSet
  /-- RUN_STOP_TOGGLE (R29): the capture controller takes a RunStop key event. -/
  | runStopToggle
  /-- KEY_SINGLE (R85): the capture controller takes a Single key event. -/
  | keySingle
  /-- KEY_FORCE_TRIGGER (R63): the trigger engine takes a ForceTrigger key event. -/
  | keyForceTrigger
  /-- KEY_CLEAR_PERSIST (R135): the rasterizer takes a ClearPersist key event. -/
  | keyClearPersist
  /-- KEY_SCAN (R26): one scan of the key matrix; bit `k` is set when key `k` reads Down. -/
  | keyScan (down : BitVec 64)
  /-- DEBOUNCE_EXPIRY (R27): the debounce timer of a key expires. -/
  | debounceExpiry (key : Nat)
  /-- KNOB_LINE_CHANGE (R31): the line pair of a knob now reads `lines`, first line in bit 1. -/
  | knobLineChange (knob : Nat) (lines : BitVec 2)
  /-- QUICK_TIMER_EXPIRY (R33): the quick timer of a knob expires. -/
  | quickTimerExpiry (knob : Nat)
  /-- TRIGGERED_PULSE_EXPIRY (R41). -/
  | triggeredPulseExpiry
  /-- TICK (R50): one full-rate sample tick, with the four ADC codes and the level of the external
  trigger input. -/
  | tick (code1 code2 code3 code4 : Byte) (ext : Bool)
  /-- HOLDOFF_EXPIRY (R60). -/
  | holdoffExpiry
  /-- AUTO_TIMER_EXPIRY (R62). -/
  | autoTimerExpiry
  /-- SETTLE_TIMER_EXPIRY (R14). -/
  | settleTimerExpiry
  /-- MEMORY_SLOT (R100): one 0.5 ns turn of the DRAM port. -/
  | memorySlot
  /-- MASK_TEST (R141): the mask checker takes the extents handed to it. -/
  | maskTest
  /-- REFRESH_INTERVAL_EXPIRY (R106). -/
  | refreshIntervalExpiry
  /-- REFRESH_COMPLETION (R108). -/
  | refreshCompletion
  /-- LINE_START (R148): the start of the next line period. -/
  | lineStart
  /-- POWER_LOSS (R169): power is lost. -/
  | powerLoss
  deriving DecidableEq, Repr

end Sys2Proof
end

