-- ==== Sys2Proof/Decode.lean ====
section
/-! DEFINITION. Words and commands. The part is a block: no row of spec/opcode_table.json gives its command
any bits, so no word spells a command. -/

namespace Sys2Proof

/-- The command a word of the table's bits spells: none, since no row of the table has bits. -/
def decodeTableWord (_nbits _w : Nat) : Option Instr := none

end Sys2Proof
end

