-- ==== Sys2Proof/Machine/Bytes.lean ====
section
/-! DEFINITION. Byte order, byte strings and the two checksums. Multi-byte fields in frames and in stored
records are little-endian (00_scope, Conventions). -/

namespace Sys2Proof.Machine

/-- The `n` bytes of `v`, least significant first. -/
def leBytes : Nat → Nat → List Byte
  | 0, _ => []
  | n + 1, v => BitVec.ofNat 8 v :: leBytes n (v / 256)

/-- The number a byte string spells, least significant byte first. -/
def leNat : List Byte → Nat
  | [] => 0
  | b :: bs => b.toNat + 256 * leNat bs

/-- A signed value as `n` bytes, little-endian, two's complement. -/
def leInt (n : Nat) (v : Int) : List Byte := leBytes n (v % (256 ^ n : Nat)).toNat

/-- The signed 32-bit value of four bytes, little-endian. -/
def intOfLe (bs : List Byte) : Int := (BitVec.ofNat 32 (leNat bs)).toInt

/-- The `n` bytes of a byte string from an offset. -/
def slice (bs : List Byte) (off n : Nat) : List Byte := (bs.drop off).take n

/-- The byte at an offset, as a number; 0 past the end. -/
def byteAt (bs : List Byte) (off : Nat) : Nat := (bs.getD off 0).toNat

/-- The little-endian number of `n` bytes from an offset. -/
def fieldAt (bs : List Byte) (off n : Nat) : Nat := leNat (slice bs off n)

/-- The byte strings of equal length that a payload's list of entries is made of. -/
def chunks (size : Nat) : Nat → List Byte → List (List Byte)
  | 0, _ => []
  | n + 1, bs => bs.take size :: chunks size n (bs.drop size)

/-- One flag per list place, the first in the least significant bit. -/
def flagBits : List Bool → Nat
  | [] => 0
  | b :: bs => b.toNat + 2 * flagBits bs

/-- A Bool as a byte, 0 or 1. -/
def boolByte (b : Bool) : Byte := if b then 1 else 0

/-- One up, saturating at `top`. -/
def satSucc (top v : Nat) : Nat := min top (v + 1)

/-- The top value of the saturating 32-bit counts. -/
def top32 : Nat := 4294967295

/-! ## The checksums -/

/-- One bit of the CRC-16 register: polynomial 0x1021, most significant bit first (R194). -/
def crc16Bit (c : BitVec 16) : BitVec 16 :=
  if c.msb then (c <<< 1) ^^^ 0x1021#16 else c <<< 1

/-- `f` applied `n` times. -/
def iter {α : Type} (f : α → α) : Nat → α → α
  | 0, a => a
  | n + 1, a => iter f n (f a)

/-- One byte of CRC-16. -/
def crc16Byte (c : BitVec 16) (b : Byte) : BitVec 16 :=
  iter crc16Bit 8 (c ^^^ (b.setWidth 16 <<< 8))

/-- CRC-16 of a byte string: initial value 0xFFFF, no final exclusive-or (R194). -/
def crc16 (bs : List Byte) : BitVec 16 := bs.foldl crc16Byte 0xFFFF#16

/-- One bit of the CRC-32 register: polynomial 0x04C11DB7 with bits taken least significant first, so the
reversed polynomial 0xEDB88320 shifted right (R164). -/
def crc32Bit (c : BitVec 32) : BitVec 32 :=
  if c.getLsbD 0 then (c >>> 1) ^^^ 0xEDB88320#32 else c >>> 1

/-- One byte of CRC-32. -/
def crc32Byte (c : BitVec 32) (b : Byte) : BitVec 32 := iter crc32Bit 8 (c ^^^ b.setWidth 32)

/-- CRC-32 of a byte string: initial value 0xFFFFFFFF, final exclusive-or 0xFFFFFFFF (R164). -/
def crc32 (bs : List Byte) : BitVec 32 := bs.foldl crc32Byte 0xFFFFFFFF#32 ^^^ 0xFFFFFFFF#32

end Sys2Proof.Machine
end

