-- ==== Sys2Proof/Machine/Catalogue.lean ====
section
/-! DEFINITION. The parameter catalogue (01, The catalogue): the 49 parameters, their kinds, limits, defaults, home values,
knob units and effect classes, and the arithmetic the manual works out from parameter values alone (R7, R8,
R68). -/

namespace Sys2Proof.Machine

/-- The kind of a parameter (R1). -/
inductive ParamKind where
  | enum | sequence | range
  deriving DecidableEq, Repr

/-- The effect class of a parameter (01, The catalogue). -/
inductive EffectClass where
  | F | C | T | D | Dk | M
  deriving DecidableEq, Repr

/-- One row of the catalogue. `lo` and `hi` are the range, or the first and last index or wire value. -/
structure ParamInfo where
  id : Nat
  kind : ParamKind
  lo : Int
  hi : Int
  dflt : Int
  home : Int
  unit : Int
  cls : EffectClass
  deriving DecidableEq, Repr

/-! ## Parameter ids -/

/-- The id of channel parameter `k` of channel `n`: 0x10·n + k. -/
def chId (n k : Nat) : Nat := 0x10 * n + k

def idEnable (n : Nat) : Nat := chId n 0
def idScale (n : Nat) : Nat := chId n 1
def idPosition (n : Nat) : Nat := chId n 2
def idCoupling (n : Nat) : Nat := chId n 3
def idBwLimit (n : Nat) : Nat := chId n 4
def idInvert (n : Nat) : Nat := chId n 5
def idTbScale : Nat := 0x50
def idTrigPos : Nat := 0x51
def idAcqLength : Nat := 0x52
def idAcqMode : Nat := 0x53
def idAcqSegments : Nat := 0x54
def idTrigSource : Nat := 0x60
def idTrigType : Nat := 0x61
def idTrigSlope : Nat := 0x62
def idTrigLevel : Nat := 0x63
def idTrigHyst : Nat := 0x64
def idTrigWidthCond : Nat := 0x65
def idTrigWidth : Nat := 0x66
def idTrigHoldoff : Nat := 0x67
def idTrigSweep : Nat := 0x68
def idPersist : Nat := 0x70
def idDecay : Nat := 0x71
def idStyle : Nat := 0x72
def idGrade : Nat := 0x73
def idZoom : Nat := 0x74
def idHpos : Nat := 0x75
def idSegment : Nat := 0x76
def idGrid : Nat := 0x77
def idMaskEnable : Nat := 0x80
def idMaskSource : Nat := 0x81
def idMaskAction : Nat := 0x82

/-- An Enum row: wire values 0..hi, home the default. -/
def enumRow (id : Nat) (hi dflt : Int) (c : EffectClass) : ParamInfo :=
  ⟨id, .enum, 0, hi, dflt, dflt, 1, c⟩

/-- A Sequence row: indices 0..hi, home the default. -/
def seqRow (id : Nat) (hi dflt : Int) (c : EffectClass) : ParamInfo :=
  ⟨id, .sequence, 0, hi, dflt, dflt, 1, c⟩

/-- A Range row. -/
def rangeRow (id : Nat) (lo hi dflt unit home : Int) (c : EffectClass) : ParamInfo :=
  ⟨id, .range, lo, hi, dflt, home, unit, c⟩

/-- The six parameters of channel `n`; only CH1 is On by default. -/
def channelRows (n : Nat) : List ParamInfo :=
  [ enumRow (idEnable n) 1 (if n = 1 then 1 else 0) .C,
    seqRow (idScale n) 12 9 .F,
    rangeRow (idPosition n) (-200) 200 0 1 0 .D,
    enumRow (idCoupling n) 2 0 .F,
    enumRow (idBwLimit n) 1 0 .F,
    enumRow (idInvert n) 1 0 .D ]

/-- The catalogue, in ascending id order. The knob unit of DISP.HPOS depends on the window and is worked
out at each detent (R34). -/
def catalogue : List ParamInfo :=
  channelRows 1 ++ channelRows 2 ++ channelRows 3 ++ channelRows 4 ++
  [ seqRow idTbScale 32 9 .C,
    rangeRow idTrigPos 0 1000 500 10 500 .C,
    seqRow idAcqLength 4 1 .C,
    enumRow idAcqMode 2 0 .C,
    rangeRow idAcqSegments 1 4096 1 1 1 .C,
    enumRow idTrigSource 4 0 .T,
    enumRow idTrigType 1 0 .T,
    enumRow idTrigSlope 2 0 .T,
    rangeRow idTrigLevel 0 255 128 1 128 .T,
    rangeRow idTrigHyst 1 32 4 1 4 .T,
    enumRow idTrigWidthCond 1 0 .T,
    rangeRow idTrigWidth 1 1000000000 1000 10 1000 .T,
    rangeRow idTrigHoldoff 0 10000000 0 10 0 .T,
    enumRow idTrigSweep 1 0 .T,
    enumRow idPersist 2 0 .D,
    rangeRow idDecay 1 255 30 1 30 .Dk,
    enumRow idStyle 1 0 .D,
    rangeRow idGrade 1 255 255 1 255 .Dk,
    seqRow idZoom 15 0 .D,
    rangeRow idHpos 0 9999900 0 1 0 .D,
    rangeRow idSegment 0 4096 0 1 0 .D,
    enumRow idGrid 2 0 .Dk,
    enumRow idMaskEnable 1 0 .M,
    enumRow idMaskSource 3 0 .M,
    enumRow idMaskAction 1 0 .M ]

/-- The catalogue row of an id, or none when the id is not in the catalogue. -/
def paramInfo (id : Nat) : Option ParamInfo := catalogue.find? fun p => p.id == id

/-- The place of an id in the catalogue. -/
def paramIndex (id : Nat) : Option Nat :=
  let h := id / 16
  let k := id % 16
  if 1 ≤ h ∧ h ≤ 4 ∧ k < 6 then some (6 * (h - 1) + k)
  else if h = 5 ∧ k < 5 then some (24 + k)
  else if h = 6 ∧ k < 9 then some (29 + k)
  else if h = 7 ∧ k < 8 then some (38 + k)
  else if h = 8 ∧ k < 3 then some (46 + k)
  else none

/-- The id is in the catalogue. -/
def knownParam (id : Nat) : Bool := (paramIndex id).isSome

/-- A parameter's value in a list of values in catalogue order; 0 for an id that is not in the catalogue. -/
def getParam (vals : List Int) (id : Nat) : Int :=
  match paramIndex id with
  | some i => vals.getD i 0
  | none => 0

/-- The values with one parameter replaced. -/
def setParam (vals : List Int) (id : Nat) (v : Int) : List Int :=
  match paramIndex id with
  | some i => vals.set i v
  | none => vals

/-- The catalogue defaults, in catalogue order. -/
def defaultValues : List Int := catalogue.map (·.dflt)

/-- A value brought inside its parameter's limits (R6; a relative Enum step stops at the ends, R4). -/
def clampParam (id : Nat) (v : Int) : Int :=
  match paramInfo id with
  | some p => max p.lo (min p.hi v)
  | none => v

/-! ## The 1-2-5 tables -/

/-- Entry `i` of a 1-2-5 table that begins at 1. -/
def oneTwoFive (i : Nat) : Nat := [1, 2, 5].getD (i % 3) 1 * 10 ^ (i / 3)

/-- TB.SCALE, ns per division. -/
def tbScaleNs (i : Nat) : Nat := oneTwoFive i

/-- ACQ.LENGTH, points. -/
def acqLengthPoints (i : Nat) : Nat := 1000 * 10 ^ i

/-- DISP.ZOOM. -/
def zoomValue (i : Nat) : Nat := oneTwoFive i

/-- The record span in ticks: 100 × the TB.SCALE table value in ns (R8, R68). -/
def spanTicks (tbScale : Nat) : Nat := 100 * tbScaleNs tbScale

/-- The effective record length in points (R8, R68). -/
def effLength (acqLength tbScale : Nat) : Nat := min (acqLengthPoints acqLength) (spanTicks tbScale)

/-- Bytes per point: 2 in Peak mode (wire value 1), 1 otherwise (R8, R68). -/
def bytesPerPoint (mode : Nat) : Nat := if mode = 1 then 2 else 1

/-- L_eff of a list of values. -/
def valuesLength (vals : List Int) : Nat :=
  effLength (getParam vals idAcqLength).toNat (getParam vals idTbScale).toNat

/-- The channels that are On, in ascending number. -/
def enabledChannels (vals : List Int) : List Nat :=
  [1, 2, 3, 4].filter fun n => getParam vals (idEnable n) != 0

/-- The length of one channel block: ceil(L_eff × b / 64) × 64 (R73). -/
def blockLength (lEff b : Nat) : Nat := (lEff * b + 63) / 64 * 64

/-- The bytes one segment takes: C channel blocks (R8, R73). -/
def segmentBytes (channels lEff b : Nat) : Nat := channels * blockLength lEff b

/-- per_segment of a list of values (R8). -/
def valuesPerSegment (vals : List Int) : Nat :=
  segmentBytes (enabledChannels vals).length (valuesLength vals)
    (bytesPerPoint (getParam vals idAcqMode).toNat)

/-- The bytes of the capture region (R8, R97). -/
def captureRegionBytes : Nat := 260046848

/-- The bytes a capture from these values needs (R8). -/
def capacityRequirement (vals : List Int) : Nat :=
  let n := (getParam vals idAcqSegments).toNat
  valuesPerSegment vals * (if n = 1 then 2 else n)

/-! ## The display window -/

/-- Z_eff: the largest DISP.ZOOM table value that does not exceed the one at the index and leaves at least
100 points (R7, R121). -/
def zoomEff (lDisp zoomIdx : Nat) : Nat :=
  ((List.range (zoomIdx + 1)).map zoomValue).foldl
    (fun best z => if 100 * z ≤ lDisp then max best z else best) 1

/-- W, the window width in points (R7, R121). -/
def windowWidth (lDisp zoomIdx : Nat) : Nat := lDisp / zoomEff lDisp zoomIdx

end Sys2Proof.Machine
end

