-- ==== Sys2Proof/Machine/Types.lean ====
section
/-! DEFINITION. The data of the eleven blocks, as plain data. Machine/State.lean puts them together. -/

namespace Sys2Proof.Machine

/-- A timer: stopped, or running with the tick at which it is due. Its expiry is a command, which has no effect
before that tick (log 10). -/
abbrev Timer := Option Tick

/-- A sparse memory: the bytes that differ from what an unlisted address reads as, at rising addresses. -/
abbrev Memory := List (Nat × Byte)

/-- A 64-byte burst to be written: one lane per byte, none where the byte mask keeps the old byte (R96). -/
abbrev Lanes := List (Option Byte)

/-! ## Setup controller -/

/-- A mask zone: unbounded, or a top and a bottom row (R2). -/
inductive Zone where
  | unbounded
  | bounded (top bottom : Nat)
  deriving DecidableEq, Repr

/-- The value of one pair of a change set: absolute, or one of the panel's relative forms (R4). -/
inductive PairValue where
  | absolute (v : Int)
  | relative (d : Int)
  | flip
  deriving DecidableEq, Repr

/-- What a change set does to the mask section. Zones are as written: two 16-bit bounds each (R137). A run
is written over the live section when the set is taken (R138). -/
inductive MaskEdit where
  | keep
  | remove
  | replace (zones : List (Nat × Nat))
  | writeRun (first : Nat) (zones : List (Nat × Nat))
  deriving DecidableEq, Repr

/-- A change set: pairs and a mask edit (R3). -/
structure ChangeSet where
  pairs : List (Nat × PairValue)
  mask : MaskEdit
  deriving DecidableEq, Repr

/-- A request frame's kind, tag and payload (R194). -/
structure Request where
  kind : Byte
  tag : Byte
  payload : List Byte
  deriving DecidableEq, Repr

/-- The setup controller. `waiting` holds requests that reached it before the power-on load (R24); `words`
the front-end words emitted since power-on (R13). -/
structure Setup where
  values : List Int
  mask : Option (List Zone)
  settle : Timer
  loadApplied : Bool
  fallback : Bool
  waiting : List Request
  words : List FrontWord
  deriving DecidableEq, Repr

/-! ## Panel controller -/

/-- The panel mode (R37). -/
inductive PanelMode where
  | localMode | remote | lockout
  deriving DecidableEq, Repr

/-- A key action with its argument (02, Key actions). -/
inductive KeyAction where
  | none | report | runStop | single | forceTrigger | defaultSetup
  | channelToggle (n : Nat)
  | recall (slot : Nat)
  | toLocal | clearPersist
  | knobHome (knob : Nat)
  deriving DecidableEq, Repr

/-- A key record and the key's binding (R26, R43). -/
structure Key where
  lastDown : Bool
  down : Bool
  debounce : Timer
  action : KeyAction
  deriving DecidableEq, Repr

/-- A knob: decoder, binding (none is Report) and shape (R31, R44, R45). -/
structure Knob where
  lines : BitVec 2
  count : Int
  mult : Nat
  run : Nat
  clockwise : Bool
  quick : Timer
  faults : Nat
  target : Option Nat
  resolution : Nat
  hold : Nat
  ramp : Nat
  maxMult : Nat
  quickMs : Nat
  deriving DecidableEq, Repr

/-- A lamp source (R39). -/
inductive LampSource where
  | off | hostDriven | running | stopped | singlePending | triggered
  | channelOn (n : Nat)
  | remote | maskFail | storeBusy
  deriving DecidableEq, Repr

/-- A lamp: its binding and its host value (R40). -/
structure Lamp where
  source : LampSource
  host : Bool
  deriving DecidableEq, Repr

/-- An event the panel hands to the capture controller (R29). -/
inductive CaptureKey where
  | runStop | single
  deriving DecidableEq, Repr

/-- The panel controller. The last five fields hold what it has handed on and the receiving block has not yet
taken (R29, R30, R34). -/
structure Panel where
  mode : PanelMode
  keys : List Key
  knobs : List Knob
  lamps : List Lamp
  triggered : Timer
  scanning : Bool
  toSetup : List ChangeSet
  toCapture : List CaptureKey
  toTrigger : Nat
  toRaster : Nat
  toStore : List Nat
  deriving DecidableEq, Repr

/-! ## Trigger engine -/

/-- The state of the current segment as the engine sees it (R52). -/
inductive ArmView where
  | idle | preFill | armed
  deriving DecidableEq, Repr

/-- The nine T-class values, as latched (R53). -/
structure TrigSettings where
  source : Int
  type : Int
  slope : Int
  level : Int
  hyst : Int
  widthCond : Int
  width : Int
  holdoff : Int
  sweep : Int
  deriving DecidableEq, Repr

/-- The polarity of a pulse being measured (R57). -/
inductive Polarity where
  | positive | negative
  deriving DecidableEq, Repr

/-- The trigger engine. -/
structure Trigger where
  timestamp : Tick
  arm : ArmView
  settings : Option TrigSettings
  risePrimed : Bool
  fallPrimed : Bool
  pulse : Option (Tick × Polarity)
  extLevel : Bool
  holdoff : Timer
  auto : Timer
  pendingForce : Bool
  deriving DecidableEq, Repr

/-! ## Capture controller -/

/-- The run state. -/
inductive RunState where
  | stopped | running | sequence | finishing
  deriving DecidableEq, Repr

/-- The capture input (R72). -/
inductive InputSel where
  | adc | pattern
  deriving DecidableEq, Repr

/-- The capture descriptor (R67, R68). `channels` is the channel set in ascending number; the front-end values
are those of CH1..CH4. -/
structure Descriptor where
  capNo : Word32
  channels : List Nat
  tbScale : Nat
  acqLength : Nat
  mode : Nat
  n : Nat
  input : InputSel
  scales : List Nat
  couplings : List Nat
  bwLimits : List Nat
  span : Nat
  lEff : Nat
  d : Nat
  t : Nat
  b : Nat
  deriving DecidableEq, Repr

/-- The state of a segment record (R80). -/
inductive RecordState where
  | filling | complete | damaged
  deriving DecidableEq, Repr

/-- The mask result of a segment (R143). -/
inductive MaskResult where
  | unchecked | pass | fail | skipped
  deriving DecidableEq, Repr

/-- A segment-table record (R80). `ident` is the identity its bursts carry (R75). -/
structure SegRecord where
  ident : Nat
  index : Nat
  serial : Option Word32
  buffer : Nat
  state : RecordState
  damaged : List Nat
  start : Option Nat
  trigTime : Option Tick
  forced : Bool
  mask : MaskResult
  displayed : Bool
  deriving DecidableEq, Repr

/-- The segment state of the current segment. `draining`: its last point is written and its bursts are
leaving the gather queue (R79). -/
inductive SegPhase where
  | holding | preFill | armed | postFill | draining
  deriving DecidableEq, Repr

/-- What one channel's forming point has gathered of its group (R70). -/
structure Group where
  first : Nat
  least : Nat
  greatest : Nat
  sum : Nat
  deriving DecidableEq, Repr

/-- The segment being filled. `formed` counts the ticks of the group being formed and `groups` holds one Group
per channel CH1..CH4; `armedAny` says whether a point has been formed in Armed (R74); `remaining` counts the
points PostFill still writes. -/
structure CurSegment where
  ident : Nat
  index : Nat
  buffer : Nat
  phase : SegPhase
  wpos : Nat
  armedAny : Bool
  remaining : Nat
  formed : Nat
  groups : List Group
  deriving DecidableEq, Repr

/-- A capture burst: the segment and channel it belongs to, its address and its lanes (R75). -/
structure CapBurst where
  ident : Nat
  channel : Nat
  addr : Nat
  lanes : Lanes
  deriving DecidableEq, Repr

/-- The capture controller. `assembly` holds the burst in assembly of CH1..CH4; `runTaken` says whether the
power-on Run has been taken, and `waiting` holds the requests that wait for it (R94). -/
structure Capture where
  runState : RunState
  desc : Option Descriptor
  table : List SegRecord
  cur : Option CurSegment
  assembly : List (Option CapBurst)
  gather : List CapBurst
  watermark : Nat
  failLatch : Bool
  maskStopMark : Bool
  settingsDiffer : Bool
  input : InputSel
  capNo : Word32
  serial : Word32
  damagedCount : Nat
  runTaken : Bool
  waiting : List Request
  nextIdent : Nat
  deriving DecidableEq, Repr

/-! ## Memory scheduler -/

/-- The state of a bank (R101, R107). -/
inductive Bank where
  | closed
  | openRow (row : Nat)
  | refreshing
  deriving DecidableEq, Repr

/-- A DRAM request of one burst (R98): a read, or a write of lanes. -/
structure MemReq where
  addr : Nat
  write : Option Lanes
  deriving DecidableEq, Repr

/-- The memory scheduler. `window` has one place per slot of the 23 before the current one, newest first, true
where a row was opened (R103). `pass` holds the pass-over counts in priority order (R105). `afterReset` marks
a refresh in progress that began before a soft reset, which lowers no owed count (R112). -/
structure Sched where
  banks : List Bank
  window : List Bool
  scanQ : List MemReq
  rasterQ : List MemReq
  readQ : List MemReq
  pass : List Nat
  intervalDue : Tick
  owed : Nat
  refreshing : Timer
  afterReset : Bool
  deriving DecidableEq, Repr

/-! ## Rasterizer -/

/-- The pass state (R116). -/
inductive PassState where
  | clearing | idle | drawing | ready
  deriving DecidableEq, Repr

/-- The display values a pass latches (R118). Channel lists are of CH1..CH4. -/
structure Latched where
  persist : Int
  decay : Int
  style : Int
  grade : Int
  zoom : Int
  hpos : Int
  segment : Int
  enable : List Bool
  position : List Int
  invert : List Bool
  decayDue : Bool
  clear : Bool
  redraw : Bool
  deriving DecidableEq, Repr

/-- A segment of the drawing list (R119), with what drawing it needs of its record. -/
structure DrawItem where
  serial : Word32
  index : Nat
  buffer : Nat
  start : Nat
  taken : Bool
  deriving DecidableEq, Repr

/-- The vector extent of a column (R123). -/
structure Extent where
  top : Nat
  bottom : Nat
  clipTop : Bool
  clipBottom : Bool
  deriving DecidableEq, Repr

/-- A burst read of which `n` bytes from offset `skip` are wanted (R128, R190). -/
structure BurstRead where
  addr : Nat
  skip : Nat
  n : Nat
  deriving DecidableEq, Repr

/-- What the rasterizer is working on. `clear next`: zeros to both sets, `next` bursts placed (R136).
`build next`: the planes of the back set (R120). `points channel rest got`: reading the window's points of a
channel, with `rest` the channels after it (R128). `grade channel rest hits`: grading the hit cells of that
channel, whose columns hit the given row ranges (R127). `handed`: waiting for the mask checker (R129). -/
inductive RasterStage where
  | none
  | clear (next : Nat)
  | build (next : Nat)
  | points (channel : Nat) (rest : List Nat) (got : List Byte)
  | grade (channel : Nat) (rest : List Nat) (hits : List (List (Nat × Nat)))
  | handed
  deriving DecidableEq, Repr

/-- The pass in flight. `todo` is the drawing list from the segment being drawn on, `drawn` what has been
drawn, in list order; `extents` those of the segment being drawn, per channel drawn. -/
structure Pass where
  latched : Latched
  desc : Option Descriptor
  todo : List DrawItem
  drawn : List DrawItem
  extents : List (Nat × List Extent)
  drawnChannels : List Nat
  overChannels : List Nat
  deriving DecidableEq, Repr

/-- The rasterizer. `reads` are the reads of the stage still to place, `ready` the writes whose data is known
and which wait for a place, `wanted` the wanted parts of the point reads placed and not yet granted,
`outstanding` the number of requests placed and not yet granted. `toMask` is what has been handed to
the mask checker and not yet taken (R129). -/
structure Raster where
  state : PassState
  drawQueue : List Word32
  pendingClear : Bool
  redraw : Bool
  pass : Option Pass
  displayed : Option Nat
  overRange : List Bool
  runView : RunState
  stage : RasterStage
  reads : List BurstRead
  wanted : List BurstRead
  ready : List MemReq
  outstanding : Nat
  toMask : Option (Word32 × List (Nat × List Extent))
  deriving DecidableEq, Repr

/-! ## Mask checker -/

/-- The mask checker's counts (R143). -/
structure MaskCounts where
  tested : Nat
  failed : Nat
  deriving DecidableEq, Repr

/-! ## Scan-out controller -/

/-- The two persistence sets (R97). -/
inductive PlaneSet where
  | setA | setB
  deriving DecidableEq, Repr

/-- A line fetch (R151): the line, what it latched, the reads still to place, the number placed and not yet
granted, and the bursts received. -/
structure Fetch where
  line : Nat
  channels : List Nat
  grid : Int
  origin : Nat × Nat
  reads : List Nat
  outstanding : Nat
  data : List (Nat × List Byte)
  deriving DecidableEq, Repr

/-- What an overlay request writes. -/
inductive OverlaySource where
  | fill (index : Byte)
  | pixels (stride : Nat) (data : List Byte)
  deriving DecidableEq, Repr

/-- An overlay request, its rectangle clipped to the screen (R156). `reply` is the tag to answer and the size
of the pixel count in the reply; none for the power-on clear. `placed` and `granted` count its bursts. -/
structure OverlayJob where
  reply : Option (Byte × Nat)
  x : Nat
  y : Nat
  w : Nat
  h : Nat
  source : OverlaySource
  placed : Nat
  granted : Nat
  deriving DecidableEq, Repr

/-- The scan-out controller. `line` is the line period whose start comes next, 0..824 of the frame;
`lineBuffer` is none until the first line is composed: `bufferLine` says what it then holds (R160). `sent` is the
line of pixels the current line period sends, empty in the blanking lines. -/
structure ScanOut where
  line : Nat
  frame : Word32
  front : PlaneSet
  origin : Nat × Nat
  pendingOrigin : Option (Nat × Nat)
  palette : List Colour
  overlayClearing : Bool
  overlayWork : List OverlayJob
  planesCleared : Bool
  fetch : Option Fetch
  lineBuffer : Option (List Colour)
  sent : List Colour
  lateLines : Nat
  deriving DecidableEq, Repr

/-! ## Setup store -/

/-- The state of an NV sector (R162). -/
inductive SectorState where
  | erased | active | full | spare
  deriving DecidableEq, Repr

/-- A row of the sector table (R162). -/
structure Sector where
  state : SectorState
  used : Nat
  live : Nat
  deriving DecidableEq, Repr

/-- Where a record lies (R166). -/
inductive RecordLoc where
  | factory (slot : Nat)
  | nv (sector offset : Nat)
  deriving DecidableEq, Repr

/-- A slot-table entry (R166). An empty slot remembers the winning Deletion record, which is live. -/
inductive SlotEntry where
  | empty (deletion : Option (Nat × Nat))
  | present (loc : RecordLoc) (seq len : Nat) (prot hasMask : Bool) (label : Option (List Byte))
  deriving DecidableEq, Repr

/-- A store operation (R171). A Save holds its snapshot, or none until the power-on load (R173). -/
inductive StoreOp where
  | save (slot : Nat) (withMask : Bool) (label : Option (List Byte))
      (snapshot : Option (List Int × Option (List Zone)))
  | recall (slot : Nat)
  | panelRecall (slot : Nat)
  | delete (slot : Nat)
  | protect (slot : Nat) (flag : Bool)
  | listSlots (first count : Nat)
  | exportSlot (slot : Nat)
  | importSlot (record : List Byte)
  | setPowerOn (slot : Nat)
  deriving DecidableEq, Repr

/-- An operation in a place of the store queue, with the tag of its request (0 for a panel recall). -/
structure QueuedOp where
  tag : Byte
  op : StoreOp
  deriving DecidableEq, Repr

/-- A live record a reclaim copies: its offset and length in the victim (R170). -/
structure LiveRecord where
  offset : Nat
  len : Nat
  deriving DecidableEq, Repr

/-- How far the operation in flight is. The first three hold the NV work in progress (R169, R170);
`handed` is a recall whose change set waits for the setup controller (R174). -/
inductive StoreStage where
  | programming (sector offset : Nat)
  | copying (victim spare : Nat) (rec : LiveRecord) (dest : Nat) (rest : List LiveRecord)
  | erasing (victim : Nat) (spare : Option Nat)
  | handed (set : ChangeSet)
  deriving DecidableEq, Repr

/-- The operation in flight. `record` is the record it writes, `reclaimed` whether a reclaim ran for it,
`silent` whether a soft reset has taken its reply away (R184). -/
structure InFlight where
  op : QueuedOp
  record : List Byte
  reclaimed : Bool
  silent : Bool
  stage : StoreStage
  deriving DecidableEq, Repr

/-- A lock entry (09, Locks). -/
structure Lock where
  slot : Nat
  count : Nat
  want : Bool
  deriving DecidableEq, Repr

/-- The setup store. `queue` holds the operations of the five places in the order they arrived; those of the
four host places are all but a panel recall. `rebuildErase` is the sector the rebuild erases to make a Spare
(R168). -/
structure Store where
  factory : List (List Byte)
  sectors : List Sector
  slots : List SlotEntry
  powerOnSlot : Nat
  powerOnLoc : Option (Nat × Nat)
  seqCounter : Nat
  queue : List QueuedOp
  waitingRecall : Option Nat
  inFlight : Option InFlight
  locks : List Lock
  rebuilding : Bool
  rebuildErase : Option Nat
  deriving DecidableEq, Repr

/-! ## Readout unit -/

/-- A ReadWave request (R187). -/
structure ReadReq where
  tag : Byte
  serial : Word32
  channel : Nat
  first : Nat
  count : Nat
  damagedToo : Bool
  deriving DecidableEq, Repr

/-- The read in flight (R188 to R191): its request, b, whether its channel was damaged, the burst reads still to
place, those placed and not yet granted, and the bytes kept so far. -/
structure ReadOp where
  req : ReadReq
  b : Nat
  channelDamaged : Bool
  todo : List BurstRead
  placed : List BurstRead
  got : List Byte
  deriving DecidableEq, Repr

/-- The readout unit. The pin is an address range, both ends included (R189). -/
structure Readout where
  inFlight : Option ReadOp
  pin : Option (Nat × Nat)
  wait : List ReadReq
  deriving DecidableEq, Repr

/-! ## Control link -/

/-- A refusal reason (R200). -/
inductive Reason where
  | unknownKind | badLength | queueFull | unknownParam | badValue | storeBusy | protectedSlot | emptySlot
  | badRecord | holdLimit | noLockEntry | notHeld | stale | range | damaged
  deriving DecidableEq, Repr

/-- The detail of a Refused reply (R200): none, the failing pair, or the failing zone. -/
inductive Detail where
  | none
  | pair (pos id : Nat)
  | zone (z : Nat)
  deriving DecidableEq, Repr

/-- Who made a reply: an accepted request's block, the link refusing a frame, or the Reset itself (R198, R205). -/
inductive ReplyOrigin where
  | accepted | linkRefusal | resetDone | notice
  deriving DecidableEq, Repr

/-- A reply frame waiting to be sent. -/
structure Reply where
  kind : Byte
  tag : Byte
  payload : List Byte
  origin : ReplyOrigin
  deriving DecidableEq, Repr

/-- A notice (R202). -/
inductive Notice where
  | paramChanged (ids : List Nat)
  | panelKey (key : Nat) (press : Bool) (mode : PanelMode)
  | panelKnob (knob : Nat) (steps : Int)
  | panelMode (mode : PanelMode)
  | runState (state : RunState) (capNo : Word32) (finished : Nat)
  | acqDone (capNo : Word32) (endedBy finished damaged : Nat)
  | segmentsReady (k : Nat) (capNo : Word32)
  | damaged (serial : Word32) (index : Nat) (channels : List Nat)
  | maskFail (serial : Word32) (channel zones first action : Nat)
  | panelRecall (slot result clamps : Nat)
  | linkFault (length crc timeout unanswered : Nat)
  deriving DecidableEq, Repr

/-- A frame being assembled: the bytes taken after the sync, and the frame timer (R195). -/
structure Assembly where
  bytes : List Byte
  due : Tick
  deriving DecidableEq, Repr

/-- The frame being sent, the number of bytes sent of it, and what it is (R201). -/
structure Sending where
  frame : List Byte
  pos : Nat
  origin : ReplyOrigin
  deriving DecidableEq, Repr

/-- The control link. `outByte` is the byte the last clock carried out. -/
structure Link where
  asm : Option Assembly
  requests : List Request
  handover : Option Request
  openCount : Nat
  replies : List Reply
  notices : List Notice
  sending : Option Sending
  lengthFaults : Nat
  crcFaults : Nat
  timeoutFaults : Nat
  unanswered : Nat
  noticesLost : Nat
  resetPending : Bool
  outByte : Byte
  deriving DecidableEq, Repr

/-- Input pins as the outside last drove them: the line pairs of the eight knobs and the external trigger
input (R49, R66). -/
structure Pins where
  knobLines : List (BitVec 2)
  ext : Bool
  deriving DecidableEq, Repr

end Sys2Proof.Machine
end

