-- ==== Sys2Proof/Machine/Records.lean ====
section
/-! DEFINITION. Stored records (09, Records): their layout, lengths and check, and the factory area's four (R163,
R164). -/

namespace Sys2Proof.Machine

/-- The slots whose records lie in NV: 4..63. The factory area holds 0..3 (R163). -/
def userSlot (slot : Nat) : Bool := 4 ≤ slot && slot ≤ 63

/-- The parameter block: 49 × (id, signed value), ascending id. -/
def paramBlock (vals : List Int) : List Byte :=
  (catalogue.zip vals).flatMap fun p => BitVec.ofNat 8 p.1.id :: leInt 4 p.2

/-- The two bounds of a zone as written (R137). -/
def zoneBounds : Zone → Nat × Nat
  | .unbounded => (0xFFFF, 0xFFFF)
  | .bounded t b => (t, b)

/-- A zone as four bytes, top first (R137). -/
def zoneBytes (z : Zone) : List Byte := leBytes 2 (zoneBounds z).1 ++ leBytes 2 (zoneBounds z).2

/-- A mask section as 800 bytes. -/
def maskBytes (zones : List Zone) : List Byte := zones.flatMap zoneBytes

/-- A zone from its two bounds as written; the caller has checked them (R137). -/
def zoneOfBounds (p : Nat × Nat) : Zone :=
  if p.1 = 0xFFFF ∧ p.2 = 0xFFFF then .unbounded else .bounded p.1 p.2

/-- The bounds of `n` zones written in a byte string. -/
def readBounds (n : Nat) (bs : List Byte) : List (Nat × Nat) :=
  (chunks 4 n bs).map fun z => (fieldAt z 0 2, fieldAt z 2 2)

/-- The twelve header bytes of a record. -/
def recordHeader (kind flags slot total seq : Nat) : List Byte :=
  [0x5D, 0x2E, BitVec.ofNat 8 kind, BitVec.ofNat 8 flags, BitVec.ofNat 8 slot, 1] ++
    leBytes 2 total ++ leBytes 4 seq

/-- A record body with its CRC-32 after it. -/
def withCrc (body : List Byte) : List Byte := body ++ leBytes 4 (crc32 body).toNat

/-- The flags byte of a Setup record: bit 0 protected, bit 1 has mask, bit 2 has label. -/
def setupFlags (prot hasMask hasLabel : Bool) : Nat := flagBits [prot, hasMask, hasLabel]

/-- The length of a record of a kind with these flags, or none for an unknown kind (R164). -/
def recordLength (kind flags : Nat) : Option Nat :=
  if kind = 1 then
    some (262 + (if flags.testBit 1 then 800 else 0) + (if flags.testBit 2 then 32 else 0))
  else if kind = 2 then some 16
  else if kind = 3 then some 17
  else none

/-- A Setup record. -/
def setupRecord (slot seq : Nat) (prot : Bool) (vals : List Int) (mask : Option (List Zone))
    (label : Option (List Byte)) : List Byte :=
  let flags := setupFlags prot mask.isSome label.isSome
  withCrc (recordHeader 1 flags slot ((recordLength 1 flags).getD 0) seq ++ [49] ++ paramBlock vals ++
    (match mask with | some z => maskBytes z | none => []) ++ label.getD [])

/-- A Deletion record. -/
def deletionRecord (slot seq : Nat) : List Byte := withCrc (recordHeader 2 0 slot 16 seq)

/-- A Control record naming the power-on slot. -/
def controlRecord (slot seq : Nat) : List Byte :=
  withCrc (recordHeader 3 0 0 17 seq ++ [BitVec.ofNat 8 slot])

/-! ## Reading a record's fields -/

def recKind (r : List Byte) : Nat := byteAt r 2
def recFlags (r : List Byte) : Nat := byteAt r 3
def recSlot (r : List Byte) : Nat := byteAt r 4
def recTotal (r : List Byte) : Nat := fieldAt r 6 2
def recSeq (r : List Byte) : Nat := fieldAt r 8 4
def recProtected (r : List Byte) : Bool := (recFlags r).testBit 0
def recHasMask (r : List Byte) : Bool := (recFlags r).testBit 1
def recHasLabel (r : List Byte) : Bool := (recFlags r).testBit 2

/-- The slot a Control record names. -/
def recPowerOn (r : List Byte) : Nat := byteAt r 12

/-- The label of a Setup record, if it has one. -/
def recLabel (r : List Byte) : Option (List Byte) :=
  if recHasLabel r then some (slice r (if recHasMask r then 1058 else 258) 32) else none

/-- The pairs of a Setup record's parameter block, as absolute pairs (R23). -/
def recPairs (r : List Byte) : List (Nat × PairValue) :=
  (chunks 5 49 (r.drop 13)).map fun p => (byteAt p 0, .absolute (intOfLe (slice p 1 4)))

/-- The change set a recall makes from a Setup record (R23). -/
def recChangeSet (r : List Byte) : ChangeSet :=
  { pairs := recPairs r
    mask := if recHasMask r then .replace (readBounds 200 (r.drop 258)) else .remove }

/-- The intact record that begins a byte string whose end is the end of its sector, or none (R164). -/
def intactRecord (avail : List Byte) : Option (List Byte) :=
  if avail.length < 12 then none
  else if avail.take 2 ≠ [0x5D, 0x2E] ∨ byteAt avail 5 ≠ 1 then none
  else
    match recordLength (recKind avail) (recFlags avail) with
    | none => none
    | some len =>
      if recTotal avail ≠ len ∨ avail.length < len then none
      else
        let body := avail.take (len - 4)
        if fieldAt avail (len - 4) 4 ≠ (crc32 body).toNat then none
        else if recKind avail = 1 ∧ byteAt avail 12 ≠ 49 then none
        else some (avail.take len)

/-- A byte string is one whole intact record. -/
def isIntact (r : List Byte) : Bool := intactRecord r == some r

/-- A record with new flags and a new sequence, and the CRC these give (R177, R180). -/
def restamp (r : List Byte) (flags seq : Nat) : List Byte :=
  let body := (r.take (r.length - 4))
  withCrc (body.take 3 ++ [BitVec.ofNat 8 flags] ++ slice body 4 4 ++ leBytes 4 seq ++ body.drop 12)

/-! ## The factory area -/

/-- A 32-byte label: ASCII, padded with 0x00. -/
def labelBytes (cs : List Char) : List Byte :=
  let bs := cs.map fun c => BitVec.ofNat 8 c.toNat
  bs ++ List.replicate (32 - bs.length) 0

/-- The factory setups' values and labels (R163). -/
def factorySetups : List (List Int × List Char) :=
  [ (defaultValues, ['D', 'E', 'F', 'A', 'U', 'L', 'T']),
    (setParam (setParam (setParam defaultValues (idEnable 2) 1) (idEnable 3) 1) (idEnable 4) 1,
      ['F', 'O', 'U', 'R', ' ', 'C', 'H', 'A', 'N', 'N', 'E', 'L']),
    (setParam (setParam defaultValues idAcqSegments 100) idTrigSweep 1,
      ['S', 'E', 'G', 'M', 'E', 'N', 'T', 'E', 'D']),
    (setParam (setParam defaultValues idAcqMode 1) idPersist 2,
      ['P', 'E', 'A', 'K', ' ', 'P', 'E', 'R', 'S', 'I', 'S', 'T']) ]

/-- The factory area: the four Setup records, sequence 0, protected, no mask (R163). -/
def factoryRecords : List (List Byte) :=
  ((List.range 4).zip factorySetups).map fun p =>
    setupRecord p.1 0 true p.2.1 none (some (labelBytes p.2.2))

/-- The slot-table entry that refers to a Setup record at a place (R166). -/
def entryOf (loc : RecordLoc) (r : List Byte) : SlotEntry :=
  .present loc (recSeq r) r.length (recProtected r) (recHasMask r) (recLabel r)

end Sys2Proof.Machine
end

