-- ==== Sys2Proof/Machine/PowerOn.lean ====
section
/-! DEFINITION. Each block's state right after the power-on reset, and the defaults that a soft reset also uses
(R24, R49, R66, R94, R111, R136, R147, R161, R185, R193, R206). -/

namespace Sys2Proof.Machine

/-- The setup controller at power-on: catalogue defaults, no mask section, settle timer stopped, load not yet
applied (R24). -/
def setupAtPowerOn : Setup :=
  { values := defaultValues, mask := none, settle := none, loadApplied := false, fallback := false,
    waiting := [], words := [] }

/-- The default key bindings (02, Key actions). -/
def defaultAction (key : Nat) : KeyAction :=
  if key = 0 then .runStop
  else if key = 1 then .single
  else if key = 2 then .forceTrigger
  else if key = 3 then .defaultSetup
  else if key < 8 then .channelToggle (key - 3)
  else if key = 8 then .toLocal
  else if key < 13 then .recall (key - 5)
  else if key = 13 then .clearPersist
  else if key < 56 then .report
  else .knobHome (key - 56)

/-- A key record after a reset (R49). -/
def keyAtReset (key : Nat) : Key :=
  { lastDown := false, down := false, debounce := none, action := defaultAction key }

/-- The default knob targets (R44). -/
def defaultTarget (knob : Nat) : Option Nat :=
  [some idTbScale, some idTrigPos, some idTrigLevel, some idHpos, some (idScale 1), some (idPosition 1),
    some idZoom, none].getD knob none

/-- A knob after a reset, its last line state read from its lines (R49). -/
def knobAtReset (knob : Nat) (lines : BitVec 2) : Knob :=
  { lines := lines, count := 0, mult := 1, run := 0, clockwise := true, quick := none, faults := 0,
    target := defaultTarget knob, resolution := 1, hold := 2, ramp := 2, maxMult := 10, quickMs := 60 }

/-- The default lamp sources (R39). -/
def defaultSource (lamp : Nat) : LampSource :=
  [.running, .stopped, .singlePending, .triggered, .channelOn 1, .channelOn 2, .channelOn 3, .channelOn 4,
    .remote, .maskFail, .storeBusy].getD lamp .hostDriven

/-- The panel controller after either reset (R49). -/
def panelAtReset (lines : List (BitVec 2)) (scanning : Bool) : Panel :=
  { mode := .localMode
    keys := (List.range 64).map keyAtReset
    knobs := (List.range 8).map fun k => knobAtReset k (lines.getD k 0)
    lamps := (List.range 32).map fun l => { source := defaultSource l, host := false }
    triggered := none, scanning := scanning
    toSetup := [], toCapture := [], toTrigger := 0, toRaster := 0, toStore := [] }

/-- The trigger engine after either reset, with the timestamp counter as given (R66). -/
def triggerAtReset (timestamp : Tick) (ext : Bool) : Trigger :=
  { timestamp := timestamp, arm := .idle, settings := none, risePrimed := false, fallPrimed := false,
    pulse := none, extLevel := ext, holdoff := none, auto := none, pendingForce := false }

/-- No burst in assembly, for CH1..CH4. -/
def noAssembly : List (Option CapBurst) := [none, none, none, none]

/-- The capture controller at power-on (R94). -/
def captureAtPowerOn : Capture :=
  { runState := .stopped, desc := none, table := [], cur := none, assembly := noAssembly, gather := [],
    watermark := 0, failLatch := false, maskStopMark := false, settingsDiffer := false, input := .adc,
    capNo := 0, serial := 0, damagedCount := 0, runTaken := false, waiting := [], nextIdent := 0 }

/-- The refresh interval in ticks: 7.8 µs (R106). -/
def refreshIntervalTicks : Nat := 78000

/-- The memory scheduler at power-on (R111). -/
def schedAtPowerOn : Sched :=
  { banks := List.replicate 8 .closed, window := List.replicate 23 false
    scanQ := [], rasterQ := [], readQ := [], pass := [0, 0, 0, 0]
    intervalDue := BitVec.ofNat 64 refreshIntervalTicks, owed := 0, refreshing := none, afterReset := false }

/-- The rasterizer after either reset: about to clear both sets (R136). -/
def rasterAtReset : Raster :=
  { state := .clearing, drawQueue := [], pendingClear := false, redraw := false, pass := none,
    displayed := none, overRange := [false, false, false, false], runView := .stopped
    stage := .clear 0, reads := [], wanted := [], ready := [], outstanding := 0, toMask := none }

/-- A colour from its components (R154). -/
def rgb (r g b : Nat) : Colour := BitVec.ofNat 24 (r * 65536 + g * 256 + b)

/-- The channel colours: yellow, cyan, magenta, green (R154). -/
def channelColour (n : Nat) : Nat × Nat × Nat :=
  if n = 1 then (255, 255, 0) else if n = 2 then (0, 255, 255) else if n = 3 then (255, 0, 255) else (0, 255, 0)

/-- The default colour of a palette index (R154). -/
def defaultColour (i : Nat) : Colour :=
  if i ≤ 1 then rgb 0 0 0
  else if i = 2 then rgb 0x40 0x40 0x40
  else if i < 16 then rgb 0xFF 0xFF 0xFF
  else if i < 80 then
    let c := channelColour (i / 16)
    let g := i % 16
    rgb (c.1 * (g + 1) / 16) (c.2.1 * (g + 1) / 16) (c.2.2 * (g + 1) / 16)
  else rgb i i i

/-- The default palette (R154). -/
def defaultPalette : List Colour := (List.range 256).map defaultColour

/-- The power-on clear of the overlay: index 0 to all 1280 × 800 pixels, answered to nobody (R156). -/
def overlayClear : OverlayJob :=
  { reply := none, x := 0, y := 0, w := 1280, h := 800, source := .fill 0, placed := 0, granted := 0 }

/-- The scan-out controller at power-on (R161). The overlay clear stands at the head of the work list. -/
def scanAtPowerOn : ScanOut :=
  { line := 0, frame := 0, front := .setA, origin := (140, 200), pendingOrigin := none
    palette := defaultPalette, overlayClearing := true, overlayWork := [overlayClear]
    planesCleared := false, fetch := none, lineBuffer := none, sent := [], lateLines := 0 }

/-- The slot table before the rebuild: the factory entries, and user slots empty (log 7). -/
def slotsBeforeRebuild (factory : List (List Byte)) : List SlotEntry :=
  ((List.range 4).map fun k => entryOf (.factory k) (factory.getD k [])) ++ List.replicate 60 (.empty none)

/-- The setup store at power-on: the rebuild has begun and its tables are not yet made (R185, log 7). -/
def storeAtPowerOn (factory : List (List Byte)) : Store :=
  { factory := factory, sectors := List.replicate 32 ⟨.erased, 0, 0⟩
    slots := slotsBeforeRebuild factory, powerOnSlot := 0, powerOnLoc := none, seqCounter := 1
    queue := [], waitingRecall := none, inFlight := none, locks := [], rebuilding := true
    rebuildErase := none }

/-- The readout unit after either reset (R193). -/
def readoutAtReset : Readout := { inFlight := none, pin := none, wait := [] }

/-- The control link after either reset (R206). The byte last clocked out is not stated by the spec (log 8). -/
def linkAtReset (outByte : Byte) : Link :=
  { asm := none, requests := [], handover := none, openCount := 0, replies := [], notices := []
    sending := none, lengthFaults := 0, crcFaults := 0, timeoutFaults := 0, unanswered := 0
    noticesLost := 0, resetPending := false, outByte := outByte }

/-- The pins before the outside has been heard from (log 6). -/
def pinsAtStart : Pins := { knobLines := List.replicate 8 0, ext := false }

end Sys2Proof.Machine
end

