-- ==== Sys2Proof/Machine/State.lean ====
section
/-! DEFINITION. The machine's state, its faults and refusals, and the state after the power-on reset. -/

namespace Sys2Proof.Machine

/-- The state of the part: the queue of waiting commands, the pins, the eleven blocks, the DRAM and the NV area.
`powered` and `cuts` are the model's own (log 4, log 5). -/
structure State where
  pending : List Instr
  powered : Bool
  cuts : Nat
  pins : Pins
  setup : Setup
  panel : Panel
  trig : Trigger
  cap : Capture
  mem : Sched
  dram : Memory
  ras : Raster
  mask : MaskCounts
  scan : ScanOut
  store : Store
  nv : Memory
  rd : Readout
  link : Link
  deriving DecidableEq, Repr

/-- Why the machine stops. -/
inductive Fault where
  /-- MEMORY_SLOT would grant a burst that does not lie wholly inside the 268,435,456 bytes that R96 gives the
  DRAM. The blocks make no such request; a state that holds one is no state of the part. Safe. -/
  | noSuchAddress (addr : Nat)
  deriving DecidableEq, Repr

/-- Why a command has no meaning. -/
inductive Refusal where
  /-- exec answers it for a row that has no meaning yet; none is left. Safe. -/
  | notModelled (mnemonic : String)
  deriving DecidableEq, Repr

/-- The part right after the power-on reset, with an erased NV area (R24 and the reset rule of each block;
logs 2 to 8 name what the spec does not state). -/
def State.reset : State :=
  { pending := [], powered := true, cuts := 0, pins := pinsAtStart, setup := setupAtPowerOn
    panel := panelAtReset pinsAtStart.knobLines false, trig := triggerAtReset 0 pinsAtStart.ext
    cap := captureAtPowerOn, mem := schedAtPowerOn, dram := [], ras := rasterAtReset, mask := ⟨0, 0⟩
    scan := scanAtPowerOn, store := storeAtPowerOn factoryRecords, nv := [], rd := readoutAtReset
    link := linkAtReset 0 }

end Sys2Proof.Machine
end

