-- ==== Sys2Proof/Machine/Ops.lean ====
section
/-! DEFINITION. The operations every block shares: memory, timers, replies and notices. -/

namespace Sys2Proof.Machine

/-! ## Memory -/

/-- The DRAM's size in bytes (R96). -/
def dramBytes : Nat := 268435456

/-- What a DRAM byte that nothing has written since power-on reads as (log 3). -/
def dramDefault : Byte := 0

/-- What an erased NV byte reads as (R162). -/
def nvDefault : Byte := 0xFF

/-- The byte at an address; `dflt` where the address is not listed. -/
def memRead (dflt : Byte) : Memory → Nat → Byte
  | [], _ => dflt
  | c :: m, a => if c.1 = a then c.2 else memRead dflt m a

/-- The memory with one byte written. Writing what an unlisted address reads as removes the entry. -/
def memWrite (dflt : Byte) : Memory → Nat → Byte → Memory
  | [], a, v => if v = dflt then [] else [(a, v)]
  | c :: m, a, v =>
    if a < c.1 then (if v = dflt then c :: m else (a, v) :: c :: m)
    else if a = c.1 then (if v = dflt then m else (a, v) :: m)
    else c :: memWrite dflt m a v

/-- The canonical form of a memory: addresses strictly rising, no entry equal to what an unlisted address
reads as. -/
abbrev Memory.wf (dflt : Byte) (m : Memory) : Prop :=
  m.Pairwise (fun x y => x.1 < y.1) ∧ ∀ c ∈ m, c.2 ≠ dflt

/-- `n` bytes from an address. -/
def memSlice (dflt : Byte) (m : Memory) (a n : Nat) : List Byte :=
  (List.range n).map fun i => memRead dflt m (a + i)

/-- The lanes written from an address on; a lane of none keeps its byte (R96). -/
def memWriteLanes (dflt : Byte) : Memory → Nat → Lanes → Memory
  | m, _, [] => m
  | m, a, none :: ls => memWriteLanes dflt m (a + 1) ls
  | m, a, some b :: ls => memWriteLanes dflt (memWrite dflt m a b) (a + 1) ls

/-- Bytes written from an address on. -/
def memWriteBytes (dflt : Byte) (m : Memory) (a : Nat) (bs : List Byte) : Memory :=
  memWriteLanes dflt m a (bs.map some)

/-- The 64 bytes of the burst at an address, as they stand (R99). -/
def burstAt (s : State) (addr : Nat) : List Byte := memSlice dramDefault s.dram addr 64

/-! ## Timers -/

/-- Ticks of 100 ps in a millisecond. -/
def ticksPerMs : Nat := 10000000

/-- A timer started now, due after so many ticks. -/
def timerFor (s : State) (ticks : Nat) : Timer := some (s.trig.timestamp + BitVec.ofNat 64 ticks)

/-- The newest tick is a due tick or a later one (log 10). -/
def tickReached (s : State) (due : Tick) : Bool := decide (due ≤ s.trig.timestamp)

/-- A timer runs and is due: its expiry can come (log 10). -/
def timerDue (s : State) : Timer → Bool
  | some due => tickReached s due
  | none => false

/-- A timer whose expiry can meet a sample: it can come once the newest tick is the one before the due tick, since
of an expiry and the sample of its tick either may be taken first (R58, R62; log 10). -/
def timerMeets (s : State) : Timer → Bool
  | some due => decide (due.toNat ≤ s.trig.timestamp.toNat + 1)
  | none => false

/-! ## Power -/

/-- What a command does to a part that has power; without power it does nothing (log 4). -/
def ifPowered (f : State → State) (s : State) : State := if s.powered then f s else s

/-! ## Parameters -/

/-- A parameter's value in the live setup. -/
def State.param (s : State) (id : Nat) : Int := getParam s.setup.values id

/-! ## Replies (R200) -/

/-- The code of a refusal reason (R200). -/
def reasonCode : Reason → Nat
  | .unknownKind => 1 | .badLength => 2 | .queueFull => 3 | .unknownParam => 4 | .badValue => 5
  | .storeBusy => 6 | .protectedSlot => 7 | .emptySlot => 8 | .badRecord => 9 | .holdLimit => 10
  | .noLockEntry => 11 | .notHeld => 12 | .stale => 13 | .range => 14 | .damaged => 15

/-- The detail form and detail bytes of a Refused payload (R200). -/
def detailBytes : Detail → List Byte
  | .none => [0, 0, 0]
  | .pair pos id => [1, BitVec.ofNat 8 pos, BitVec.ofNat 8 id]
  | .zone z => 2 :: leBytes 2 z

/-- The five bytes of a Refused payload (R200). -/
def refusedPayload (reason : Reason) (kind : Byte) (detail : Detail) : List Byte :=
  BitVec.ofNat 8 (reasonCode reason) :: kind :: detailBytes detail

/-- The Done and Refused kinds (R194). -/
def kindDone : Byte := 0x80
def kindRefused : Byte := 0x81

/-- A reply put at the tail of the reply queue. -/
def pushReply (r : Reply) (s : State) : State :=
  { s with link := { s.link with replies := s.link.replies ++ [r] } }

/-- A Done reply to an accepted request with this tag. -/
def replyDone (tag : Byte) (payload : List Byte) (s : State) : State :=
  pushReply { kind := kindDone, tag := tag, payload := payload, origin := .accepted } s

/-- A Refused reply to an accepted request with this tag and kind. -/
def replyRefused (tag kind : Byte) (reason : Reason) (detail : Detail) (s : State) : State :=
  pushReply
    { kind := kindRefused, tag := tag, payload := refusedPayload reason kind detail, origin := .accepted } s

/-! ## Notices (R202) -/

/-- The places of the notice queue (R202). -/
def noticePlaces : Nat := 32

/-- A PanelKnob's steps saturate at ±32767 (R35). -/
def clampSteps (v : Int) : Int := max (-32767) (min 32767 v)

/-- The ids of either list, ascending, each once (R19). -/
def unionIds (a b : List Nat) : List Nat :=
  (catalogue.map (·.id)).filter fun id => a.contains id || b.contains id

/-- The counts of a LinkFault saturate at 65535 (R197). -/
def addFault (a b : Nat) : Nat := min 65535 (a + b)

/-- What a queued notice becomes when a new one of its kind is merged into it, or none when the two do not
coalesce (R202). -/
def mergeNotice : Notice → Notice → Option Notice
  | .paramChanged a, .paramChanged b => some (.paramChanged (unionIds a b))
  | .panelKnob k a, .panelKnob k' b => if k = k' then some (.panelKnob k (clampSteps (a + b))) else none
  | .runState _ _ _, .runState st c f => some (.runState st c f)
  | .linkFault a b c d, .linkFault a' b' c' d' =>
    some (.linkFault (addFault a a') (addFault b b') (addFault c c') (addFault d d'))
  | _, _ => none

/-- A notice merged into the queued one it coalesces with, which keeps its place; none when there is none. -/
def mergeInto (n : Notice) : List Notice → Option (List Notice)
  | [] => none
  | q :: qs =>
    match mergeNotice q n with
    | some m => some (m :: qs)
    | none => (mergeInto n qs).map (q :: ·)

/-- A notice offered to the notice queue: merged, or put at the tail, or dropped and counted (R202). -/
def offerLink (n : Notice) (l : Link) : Link :=
  match mergeInto n l.notices with
  | some qs => { l with notices := qs }
  | none =>
    if l.notices.length < noticePlaces then { l with notices := l.notices ++ [n] }
    else { l with noticesLost := satSucc top32 l.noticesLost }

/-- A notice offered by a block. -/
def offer (n : Notice) (s : State) : State := { s with link := offerLink n s.link }

/-! ## Records of the segment table -/

/-- The records with the given serial that are finished. -/
def finishedRecord (table : List SegRecord) (serial : Word32) : Option SegRecord :=
  table.find? fun r => r.serial == some serial && r.state != .filling

/-- One record of the segment table changed, found by its identity. -/
def updateRecord (ident : Nat) (f : SegRecord → SegRecord) (table : List SegRecord) : List SegRecord :=
  table.map fun r => if r.ident = ident then f r else r

/-- The mask result of the segment with a serial, if the table still holds it (R114, R143). -/
def setMaskResult (serial : Word32) (m : MaskResult) (s : State) : State :=
  { s with cap := { s.cap with
      table := s.cap.table.map fun r =>
        if r.serial = some serial ∧ r.state ≠ .filling then { r with mask := m } else r } }

/-- Several segments' mask results become Skipped. -/
def skipAll (serials : List Word32) (s : State) : State :=
  serials.foldl (fun s serial => setMaskResult serial .skipped s) s

end Sys2Proof.Machine
end

