-- ==== Sys2Proof/Machine/Operands.lean ====
section
/-! DEFINITION. The operand forms of the requests: which payload lengths each kind allows (11, The kind-code table) and
how the payloads that carry lists are read. -/

namespace Sys2Proof.Machine

/-- A payload of a count byte in `lo..hi` followed by `count` entries of `size` bytes. -/
def countedLength (lo hi size : Nat) (p : List Byte) : Bool :=
  let count := byteAt p 0
  1 ≤ p.length && lo ≤ count && count ≤ hi && p.length == 1 + size * count

/-- Whether a request kind allows a payload, by its length and the agreement of its count field; none for a
kind that is no request kind (R198, the kind-code table). -/
def lengthAllowed (kind : Byte) (p : List Byte) : Option Bool :=
  let n := p.length
  match kind.toNat with
  | 0x01 => some (n ≤ 2112)
  | 0x02 | 0x03 | 0x16 | 0x18 | 0x19 | 0x1A | 0x1B | 0x1E | 0x21 | 0x22 | 0x23 => some (n == 0)
  | 0x08 => some (countedLength 1 16 5 p)
  | 0x09 => some (n == 0 || countedLength 1 49 1 p)
  | 0x10 | 0x1D | 0x29 | 0x2A | 0x2D | 0x2F | 0x30 | 0x31 => some (n == 1)
  | 0x11 | 0x14 | 0x34 => some (n == 3)
  | 0x12 | 0x1C | 0x2B | 0x2C => some (n == 2)
  | 0x13 => some (n == 7)
  | 0x15 => some (countedLength 1 32 2 p)
  | 0x20 =>
    let count := byteAt p 1
    some (2 ≤ n && 1 ≤ count && count ≤ 200 && n == 2 + 4 * count)
  | 0x24 =>
    let area := fieldAt p 4 2 * fieldAt p 6 2
    some (8 ≤ n && area ≤ 2048 && n == 8 + area)
  | 0x25 => some (n == 9)
  | 0x26 =>
    let count := fieldAt p 1 2
    some (3 ≤ n && 1 ≤ count && count ≤ 256 && n == 3 + 3 * count)
  | 0x27 => some (n == 4)
  | 0x28 => some (n == 2 || n == 34)
  | 0x2E => some (262 ≤ n && n ≤ 1094)
  | 0x35 => some (n == 12)
  | _ => none

/-- The pairs of a SetParams payload, all absolute (R20). -/
def setParamsPairs (p : List Byte) : List (Nat × PairValue) :=
  (chunks 5 (byteAt p 0) (p.drop 1)).map fun c => (byteAt c 0, .absolute (intOfLe (slice c 1 4)))

/-- The ids a GetParams payload asks for; an empty payload asks for all 49 (R22). -/
def getParamsIds (p : List Byte) : List Nat :=
  if p.isEmpty then catalogue.map (·.id) else (p.drop 1).map (·.toNat)

/-- The lamp and state pairs of a SetLamp payload (R47). -/
def setLampPairs (p : List Byte) : List (Nat × Nat) :=
  (chunks 2 (byteAt p 0) (p.drop 1)).map fun c => (byteAt c 0, byteAt c 1)

/-- The colours of a WritePalette payload, red first (R155). -/
def paletteColours (p : List Byte) : List Colour :=
  (chunks 3 (fieldAt p 1 2) (p.drop 3)).map fun c => rgb (byteAt c 0) (byteAt c 1) (byteAt c 2)

/-- The key action a code and argument stand for, or none when they are out of range (R43). -/
def keyActionOf (code arg : Nat) : Option KeyAction :=
  match code with
  | 0 => if arg = 0 then some .none else none
  | 1 => if arg = 0 then some .report else none
  | 2 => if arg = 0 then some .runStop else none
  | 3 => if arg = 0 then some .single else none
  | 4 => if arg = 0 then some .forceTrigger else none
  | 5 => if arg = 0 then some .defaultSetup else none
  | 6 => if 1 ≤ arg ∧ arg ≤ 4 then some (.channelToggle arg) else none
  | 7 => if arg ≤ 63 then some (.recall arg) else none
  | 8 => if arg = 0 then some .toLocal else none
  | 9 => if arg = 0 then some .clearPersist else none
  | 10 => if arg ≤ 7 then some (.knobHome arg) else none
  | _ => none

/-- The code and argument of a key action (R48). -/
def keyActionCode : KeyAction → Nat × Nat
  | .none => (0, 0) | .report => (1, 0) | .runStop => (2, 0) | .single => (3, 0)
  | .forceTrigger => (4, 0) | .defaultSetup => (5, 0) | .channelToggle n => (6, n) | .recall k => (7, k)
  | .toLocal => (8, 0) | .clearPersist => (9, 0) | .knobHome k => (10, k)

/-- The lamp source a code and argument stand for, or none when they are out of range (R46). -/
def lampSourceOf (code arg : Nat) : Option LampSource :=
  match code with
  | 0 => if arg = 0 then some .off else none
  | 1 => if arg = 0 then some .hostDriven else none
  | 2 => if arg = 0 then some .running else none
  | 3 => if arg = 0 then some .stopped else none
  | 4 => if arg = 0 then some .singlePending else none
  | 5 => if arg = 0 then some .triggered else none
  | 6 => if 1 ≤ arg ∧ arg ≤ 4 then some (.channelOn arg) else none
  | 7 => if arg = 0 then some .remote else none
  | 8 => if arg = 0 then some .maskFail else none
  | 9 => if arg = 0 then some .storeBusy else none
  | _ => none

/-- The code and argument of a lamp source (R48). -/
def lampSourceCode : LampSource → Nat × Nat
  | .off => (0, 0) | .hostDriven => (1, 0) | .running => (2, 0) | .stopped => (3, 0)
  | .singlePending => (4, 0) | .triggered => (5, 0) | .channelOn n => (6, n) | .remote => (7, 0)
  | .maskFail => (8, 0) | .storeBusy => (9, 0)

end Sys2Proof.Machine
end

