-- ==== Sys2Proof/Config.lean ====
section
/-! DEFINITION. The free values: what the manual leaves open and nothing here fixes. Each is an opaque
constant, so a claim that holds of the model holds whatever it is. They are indexed by State's plain
counter of power cuts, so that no two cuts need leave the same bytes. -/

namespace Sys2Proof

/-- FREE VALUE (log 5). How many bytes of a record had been programmed when power cut `n` came (R169: the
record is then partial). The meaning takes at most the record's length less one. -/
opaque Config.bytesProgrammed (n : Nat) : Nat

/-- FREE VALUE (log 5). What the byte that was being programmed at power cut `n` reads (R167). -/
opaque Config.cutByte (n : Nat) : Byte

/-- FREE VALUE (log 5). What the byte at an offset of a sector reads whose erase power cut `n` cut off
(R167, R185: a half-erased sector). -/
opaque Config.halfErasedByte (n offset : Nat) : Byte

end Sys2Proof
end

