-- ==== Sys2Proof/Machine/DrawQueue.lean ====
section
/-! DEFINITION. What other blocks do to the rasterizer outside a pass: the draw queue, the pending clear and the redraw
request (R114, R115, R133 to R135). -/

namespace Sys2Proof.Machine

/-- The places of the draw queue (R114). -/
def drawPlaces : Nat := 64

/-- A serial appended to the draw queue; at 64 the oldest is removed first and its segment becomes Skipped
(R114). -/
def appendDraw (serial : Word32) (s : State) : State :=
  let oldest := if s.ras.drawQueue.length < drawPlaces then [] else s.ras.drawQueue.take 1
  let s := skipAll oldest s
  { s with ras := { s.ras with drawQueue := s.ras.drawQueue.drop oldest.length ++ [serial] } }

/-- The pending clear set, and the redraw request too when the run state view is Stopped: a display change
with clearing (R133) and ClearPersist (R135). -/
def requestClear (s : State) : State :=
  { s with ras := { s.ras with
      pendingClear := true, redraw := s.ras.redraw || s.ras.runView == .stopped } }

/-- The report of an entry to Finishing sets the redraw request (R134). -/
def requestRedraw (s : State) : State := { s with ras := { s.ras with redraw := true } }

/-- A mask stop at the rasterizer (R115): every queued serial, and every taken segment of the pass not yet
drawn, is removed and becomes Skipped. -/
def rasterMaskStop (s : State) : State :=
  let undrawn := match s.ras.pass with
    | some p => (p.todo.filter (·.taken)).map (·.serial)
    | none => []
  let s := skipAll (s.ras.drawQueue ++ undrawn) s
  { s with ras := { s.ras with
      drawQueue := []
      pass := s.ras.pass.map fun p => { p with todo := p.todo.filter fun i => !i.taken } } }

end Sys2Proof.Machine
end

