-- ==== Sys2Proof/Machine/Flags.lean ====
section
/-! DEFINITION. Every status flag, output and flag byte the part computes from its state: ATTN, the lamps, store busy, the
status flags of GetStatus, channel flag bytes. -/

namespace Sys2Proof.Machine

/-- One flag per channel, CH1 in the least significant bit (R92, R186, R204). -/
def channelFlags (channels : List Nat) : Byte :=
  BitVec.ofNat 8 (flagBits ([1, 2, 3, 4].map fun n => channels.contains n))

/-- The run state's wire value (R90). -/
def runStateCode : RunState → Nat
  | .stopped => 0 | .running => 1 | .sequence => 2 | .finishing => 3

/-- The panel mode's wire value (R42). -/
def panelModeCode : PanelMode → Nat
  | .localMode => 0 | .remote => 1 | .lockout => 2

/-- The capture input's wire value (R72). -/
def inputCode : InputSel → Nat
  | .adc => 0 | .pattern => 1

/-- Any place of the store queue holds an operation, or one is in flight (R171). -/
def storeBusy (s : State) : Bool := !s.store.queue.isEmpty || s.store.inFlight.isSome

/-- The flags byte of GetStatus (R204). -/
def statusFlags (s : State) : Byte :=
  BitVec.ofNat 8 (flagBits [s.cap.settingsDiffer, s.cap.failLatch, storeBusy s, s.setup.fallback])

/-- ATTN: high while the reply or notice queue holds a frame or a frame is part-way out (R201). -/
def attn (s : State) : Bool :=
  !s.link.replies.isEmpty || !s.link.notices.isEmpty || s.link.sending.isSome

/-- The target of the sequence: N of the descriptor (R82, R85). -/
def sequenceTarget (s : State) : Nat := match s.cap.desc with | some d => d.n | none => 0

/-- Whether a lamp source is lit (R39). -/
def sourceLit (s : State) (host : Bool) : LampSource → Bool
  | .off => false
  | .hostDriven => host
  | .running => s.cap.runState == .running || s.cap.runState == .sequence
  | .stopped => s.cap.runState == .stopped
  | .singlePending => s.cap.runState == .sequence && sequenceTarget s == 1
  | .triggered => s.panel.triggered.isSome
  | .channelOn n => s.param (idEnable n) != 0
  | .remote => s.panel.mode != .localMode
  | .maskFail => s.cap.failLatch
  | .storeBusy => storeBusy s

/-- The outputs of the 32 lamps. They follow their sources in the same event, so they are computed (R40). -/
def lampOutputs (s : State) : List Bool := s.panel.lamps.map fun l => sourceLit s l.host l.source

end Sys2Proof.Machine
end

