-- ==== Sys2Proof/Machine/Trigger.lean ====
section
/-! DEFINITION. The trigger engine's own work: settings, detectors and widths (R50 to R57), and what the capture controller
tells it (R52). Acceptance, which moves the segment, is in Machine/Capture.lean. -/

namespace Sys2Proof.Machine

/-- The wire value of TRIG.SOURCE that stands for the external input. -/
def sourceExt : Int := 4

/-- The nine T-class values of the live setup (R53). -/
def liveTrig (s : State) : TrigSettings :=
  { source := s.param idTrigSource, type := s.param idTrigType, slope := s.param idTrigSlope
    level := s.param idTrigLevel, hyst := s.param idTrigHyst, widthCond := s.param idTrigWidthCond
    width := s.param idTrigWidth, holdoff := s.param idTrigHoldoff, sweep := s.param idTrigSweep }

/-- Settings latched and the detectors re-initialised; the EXT level is kept (R53, R65). -/
def latchTrig (c : TrigSettings) (t : Trigger) : Trigger :=
  { t with settings := some c, risePrimed := false, fallPrimed := false, pulse := none }

/-- The latching at the entry to Armed: only when the live values differ from those in use (R53). -/
def latchAtArmed (c : TrigSettings) (t : Trigger) : Trigger :=
  if t.settings = some c then t else latchTrig c t

/-- Edge with slope Rising or Either, or Width (R54). -/
def risingRuns (c : TrigSettings) : Bool :=
  c.source != sourceExt && (c.type == 1 || c.slope == 0 || c.slope == 2)

/-- Edge with slope Falling or Either, or Width (R54). -/
def fallingRuns (c : TrigSettings) : Bool :=
  c.source != sourceExt && (c.type == 1 || c.slope == 1 || c.slope == 2)

/-- The rising detector's primed flag after a sample, and whether the sample is a rising fire (R54). -/
def risingStep (c : TrigSettings) (code : Int) (primed : Bool) : Bool × Bool :=
  if !risingRuns c then (false, false)
  else if primed && decide (c.level ≤ code) then (false, true)
  else if !primed && decide (code ≤ max 0 (c.level - c.hyst)) then (true, false)
  else (primed, false)

/-- The falling detector's primed flag after a sample, and whether the sample is a falling fire (R54). -/
def fallingStep (c : TrigSettings) (code : Int) (primed : Bool) : Bool × Bool :=
  if !fallingRuns c then (false, false)
  else if primed && decide (code ≤ c.level) then (false, true)
  else if !primed && decide (min 255 (c.level + c.hyst) ≤ code) then (true, false)
  else (primed, false)

/-- The polarity a fire closes: a rising fire a negative pulse, a falling fire a positive one (R57). -/
def closedBy (rising : Bool) : Polarity := if rising then .negative else .positive

/-- The polarity a fire opens (R57). -/
def openedBy (rising : Bool) : Polarity := if rising then .positive else .negative

/-- Which pulses TRIG.SLOPE measures (R57). -/
def measures (c : TrigSettings) : Polarity → Bool
  | .positive => c.slope == 0 || c.slope == 2
  | .negative => c.slope == 1 || c.slope == 2

/-- A width meets the condition (R57): Shorter is wire value 0, Longer 1. -/
def widthMeets (c : TrigSettings) (w : Nat) : Bool :=
  if c.widthCond = 0 then decide ((w : Int) < c.width) else decide (c.width < (w : Int))

/-- What a rising or falling fire does to the pulse start, and whether it is a trigger fire (R57). -/
def widthStep (c : TrigSettings) (now : Tick) (rising : Bool) (pulse : Option (Tick × Polarity)) :
    Option (Tick × Polarity) × Bool :=
  let ended := match pulse with
    | some (start, p) =>
      if p = closedBy rising then (none, widthMeets c (now - start).toNat) else (pulse, false)
    | none => (none, false)
  (if measures c (openedBy rising) then some (now, openedBy rising) else ended.1, ended.2)

/-- One fire taken through width detection, if there is one. -/
def widthFire (c : TrigSettings) (now : Tick) (rising fire : Bool)
    (st : Option (Tick × Polarity) × Bool) : Option (Tick × Polarity) × Bool :=
  if fire then
    let r := widthStep c now rising st.1
    (r.1, st.2 || r.2)
  else st

/-- The engine takes one sample of its source (R51 to R57): the engine after it, and whether the sample gave a
trigger fire. The timestamp counter already holds the sample's tick. -/
def sampleEngine (codes : List Nat) (ext : Bool) (t : Trigger) : Trigger × Bool :=
  match t.settings with
  | none => ({ t with extLevel := ext }, false)
  | some c =>
    let code : Int := (codes.getD c.source.toNat 0 : Nat)
    let rise := risingStep c code t.risePrimed
    let fall := fallingStep c code t.fallPrimed
    let rising := if c.source = sourceExt then !t.extLevel && ext else rise.2
    let falling := if c.source = sourceExt then t.extLevel && !ext else fall.2
    let t := { t with extLevel := ext, risePrimed := rise.1, fallPrimed := fall.1 }
    if c.type = 0 then
      (t, (rising && c.slope != 1) || (falling && c.slope != 0))
    else
      let w := widthFire c t.timestamp false falling (widthFire c t.timestamp true rising (t.pulse, false))
      ({ t with pulse := w.1 }, w.2)

/-- The auto timeout in ticks: the larger of 50 ms and the descriptor's record span (R61). -/
def autoTimeout (s : State) : Nat :=
  max (50 * ticksPerMs) (match s.cap.desc with | some d => d.span | none => 0)

/-- The auto timer after settings are latched in Armed: started in Auto sweep (wire value 0), else stopped
(R61, R65). -/
def armAuto (s : State) : State :=
  let auto := match s.trig.settings with
    | some c => if c.sweep = 0 then timerFor s (autoTimeout s) else none
    | none => none
  { s with trig := { s.trig with auto := auto } }

/-- The engine is told that the segment enters PreFill (R52). -/
def tellPreFill (s : State) : State := { s with trig := { s.trig with arm := .preFill } }

/-- The engine is told that the segment was dropped from PreFill or Armed: the auto timer stops and a pending
force is lost (R52, R61, R64). -/
def tellDropped (s : State) : State :=
  { s with trig := { s.trig with arm := .idle, auto := none, pendingForce := false } }

/-- A trigger change: acted on in Armed only (R65). -/
def triggerChange (s : State) : State :=
  if s.trig.arm = .armed then armAuto { s with trig := latchTrig (liveTrig s) s.trig } else s

/-- The pattern's code of a channel at a tick (R71). -/
def patternCode (t : Tick) (n : Nat) : Nat := if t.toNat / (5000 * n) % 2 = 0 then 178 else 78

/-- The pattern's codes of CH1..CH4 at a tick (R71). -/
def patternCodes (t : Tick) : List Nat := [1, 2, 3, 4].map (patternCode t)

end Sys2Proof.Machine
end

