-- ==== Sys2Proof/Machine/Capture.lean ====
section
/-! DEFINITION. The capture controller: descriptors, points and bursts, the life of a segment, run control and notices (04), and
the trigger's acceptance, which moves the segment (R58, R59). -/

namespace Sys2Proof.Machine

/-! ## Descriptor and buffers -/

/-- per_segment of a descriptor (R73). -/
def perSegment (d : Descriptor) : Nat := segmentBytes d.channels.length d.lEff d.b

/-- The place of a channel among those of the channel set, from 0 (R73). -/
def channelRank (d : Descriptor) (ch : Nat) : Nat := (d.channels.filter (· < ch)).length

/-- The first address of a channel's block in a buffer (R73). -/
def blockAddr (d : Descriptor) (buffer ch : Nat) : Nat :=
  buffer * perSegment d + channelRank d ch * blockLength d.lEff d.b

/-- The derived T (R68). -/
def pointsBefore (lEff trigPos : Nat) : Nat := min (lEff - 1) (lEff * trigPos / 1000)

/-- The descriptor taken from a list of values (R67, R68). -/
def descriptorOf (capNo : Word32) (input : InputSel) (vals : List Int) : Descriptor :=
  let tb := (getParam vals idTbScale).toNat
  let len := (getParam vals idAcqLength).toNat
  let mode := (getParam vals idAcqMode).toNat
  let per := fun (f : Nat → Nat) => [1, 2, 3, 4].map fun n => (getParam vals (f n)).toNat
  { capNo := capNo, channels := enabledChannels vals, tbScale := tb, acqLength := len, mode := mode
    n := (getParam vals idAcqSegments).toNat, input := input
    scales := per idScale, couplings := per idCoupling, bwLimits := per idBwLimit
    span := spanTicks tb, lEff := effLength len tb, d := spanTicks tb / effLength len tb
    t := pointsBefore (effLength len tb) (getParam vals idTrigPos).toNat, b := bytesPerPoint mode }

/-- The finished records of the table (R80). -/
def finishedRecords (s : State) : List SegRecord := s.cap.table.filter fun r => r.state != .filling

/-- The finished count (R80). -/
def finishedCount (s : State) : Nat := (finishedRecords s).length

/-- The pin covers part of a buffer's range (R77, R189). -/
def pinHolds (s : State) (d : Descriptor) (buffer : Nat) : Bool :=
  match s.rd.pin with
  | some (lo, hi) =>
    0 < perSegment d && lo < (buffer + 1) * perSegment d && buffer * perSegment d ≤ hi
  | none => false

/-! ## Bursts (R75, R76) -/

/-- The places of the gather queue (R76). -/
def gatherPlaces : Nat := 64

/-- A burst arrives at the gather queue; at 64 it is dropped and its channel joins its segment's damaged
channels (R76). -/
def pushBurst (b : CapBurst) (s : State) : State :=
  if s.cap.gather.length < gatherPlaces then
    { s with cap := { s.cap with gather := s.cap.gather ++ [b] } }
  else
    { s with cap := { s.cap with
        table := updateRecord b.ident
          (fun r => if r.damaged.contains b.channel then r else { r with damaged := r.damaged ++ [b.channel] })
          s.cap.table } }

/-- The burst in assembly of a channel replaced. -/
def setAssembly (ch : Nat) (b : Option CapBurst) (s : State) : State :=
  { s with cap := { s.cap with assembly := s.cap.assembly.set (ch - 1) b } }

/-- The burst in assembly of a channel leaves with the mask of what has been written (R75). -/
def flushChannel (s : State) (ch : Nat) : State :=
  match s.cap.assembly.getD (ch - 1) none with
  | some b => pushBurst b (setAssembly ch none s)
  | none => s

/-- Segment end: every burst in assembly leaves, in ascending channel number (R75). -/
def flushAssembly (s : State) : State := [1, 2, 3, 4].foldl flushChannel s

/-- Bytes put into the lanes of a burst from an offset on. -/
def putLanes (lanes : Lanes) (off : Nat) : List Byte → Lanes
  | [] => lanes
  | b :: bs => putLanes (lanes.set off (some b)) (off + 1) bs

/-- A point's bytes of one channel go into its burst in assembly, which leaves when its unit is filled or the
ring wraps (R74, R75). -/
def putPoint (d : Descriptor) (c : CurSegment) (ch : Nat) (bytes : List Byte) (s : State) : State :=
  let off := c.wpos * d.b
  let old := match s.cap.assembly.getD (ch - 1) none with
    | some b => b.lanes
    | none => List.replicate 64 none
  let burst : CapBurst :=
    { ident := c.ident, channel := ch, addr := blockAddr d c.buffer ch + off / 64 * 64
      lanes := putLanes old (off % 64) bytes }
  if (off + d.b) % 64 = 0 ∨ c.wpos + 1 = d.lEff then pushBurst burst (setAssembly ch none s)
  else setAssembly ch (some burst) s

/-! ## Points (R69, R70) -/

/-- A code joins the group being formed. -/
def addCode (g : Group) (code : Nat) : Group :=
  { g with least := min g.least code, greatest := max g.greatest code, sum := g.sum + code }

/-- The four channels' groups with one more tick's codes. -/
def addCodes (formed : Nat) (groups : List Group) (codes : List Nat) : List Group :=
  if formed = 0 then codes.map fun c => ⟨c, c, c, c⟩ else List.zipWith addCode groups codes

/-- The bytes of a point (R70): Sample 0, Peak 1, Mean 2. -/
def pointBytes (mode d : Nat) (g : Group) : List Byte :=
  if mode = 0 then [BitVec.ofNat 8 g.first]
  else if mode = 1 then [BitVec.ofNat 8 g.least, BitVec.ofNat 8 g.greatest]
  else [BitVec.ofNat 8 ((g.sum + d / 2) / d)]

/-- One point per channel of the channel set, written at the write position (R69, R74). -/
def putPoints (d : Descriptor) (c : CurSegment) (groups : List Group) (s : State) : State :=
  d.channels.foldl
    (fun s ch => putPoint d c ch (pointBytes d.mode d.d (groups.getD (ch - 1) ⟨0, 0, 0, 0⟩)) s) s

/-! ## Acceptance of a trigger (R59) -/

/-- The capture controller is handed the trigger: trigger point, start offset, timestamp, forced flag, PostFill
(R74, R78). A fire comes in its sample's tick, so its point is still forming. A forced trigger's tick is the
newest one: when no group is forming and a point has been formed in Armed, it belongs to that point. -/
def captureTrigger (fire : Bool) (s : State) : State :=
  match s.cap.cur, s.cap.desc with
  | some c, some d =>
    if c.phase = .armed then
      let written := !fire && c.formed == 0 && c.armedAny
      let pos := if written then (c.wpos + d.lEff - 1) % d.lEff else c.wpos
      let left := if written then d.lEff - d.t - 1 else d.lEff - d.t
      { s with cap := { s.cap with
          cur := some { c with phase := .postFill, remaining := left }
          table := updateRecord c.ident
            (fun r => { r with start := some ((pos + d.lEff - d.t) % d.lEff)
                               trigTime := some s.trig.timestamp, forced := !fire }) s.cap.table } }
    else s
  | _, _ => s

/-- Ticks of the Triggered pulse: 100 ms (R41). -/
def triggeredTicks : Nat := 100 * ticksPerMs

/-- The engine's part of an acceptance (R59): holdoff from the latched value, started only when it is not 0 (log 15),
auto timer stopped, Triggered pulse started, arm view Idle. -/
def engineAccept (s : State) : State :=
  let ticks := match s.trig.settings with | some c => c.holdoff.toNat * 100 | none => 0
  { s with
    trig := { s.trig with
      holdoff := if ticks = 0 then s.trig.holdoff else timerFor s ticks
      auto := none, arm := .idle }
    panel := { s.panel with triggered := timerFor s triggeredTicks } }

/-- A trigger accepted at the tick of the newest sample: a fire, or a forced trigger (R59). -/
def acceptTrigger (fire : Bool) (s : State) : State := captureTrigger fire (engineAccept s)

/-! ## The life of a segment -/

/-- The current segment replaced. -/
def setCur (c : CurSegment) (s : State) : State := { s with cap := { s.cap with cur := some c } }

/-- Entry to Armed: the engine latches its settings, starts the auto timer and takes a pending force (R78, R53,
R61, R64). -/
def enterArmed (c : CurSegment) (s : State) : State :=
  let s := setCur { c with phase := .armed, armedAny := false } s
  let s := armAuto { s with trig := { latchAtArmed (liveTrig s) s.trig with arm := .armed } }
  if s.trig.pendingForce then acceptTrigger false { s with trig := { s.trig with pendingForce := false } }
  else s

/-- Entry to PreFill; with T = 0 the segment enters Armed in the same event (R74, R78). -/
def enterPreFill (d : Descriptor) (c : CurSegment) (s : State) : State :=
  let c := { c with phase := .preFill, wpos := 0, formed := 0, groups := [] }
  let s := tellPreFill (setCur c s)
  if d.t = 0 then enterArmed c s else s

/-- A segment in Holding leaves it once the settle timer is stopped and its buffer is not pinned (R77). -/
def leaveHolding (s : State) : State :=
  match s.cap.cur, s.cap.desc with
  | some c, some d =>
    if c.phase = .holding ∧ s.setup.settle = none ∧ pinHolds s d c.buffer = false then enterPreFill d c s
    else s
  | _, _ => s

/-- A segment begins in Holding with a Filling record (R77). -/
def beginSegment (index buffer : Nat) (s : State) : State :=
  let ident := s.cap.nextIdent
  leaveHolding { s with cap := { s.cap with
    nextIdent := ident + 1
    table := s.cap.table ++
      [{ ident := ident, index := index, serial := none, buffer := buffer, state := .filling, damaged := []
         start := none, trigTime := none, forced := false, mask := .unchecked, displayed := false }]
    cur := some { ident := ident, index := index, buffer := buffer, phase := .holding, wpos := 0
                  armedAny := false, remaining := 0, formed := 0, groups := [] } } }

/-- The segment in flight is dropped: its burst in assembly leaves, its record is removed, and the engine is told
if it was in PreFill or Armed (R75, R84). -/
def dropCurrent (s : State) : State :=
  match s.cap.cur with
  | none => s
  | some c =>
    let s := flushAssembly s
    let s := if c.phase = .preFill ∨ c.phase = .armed then tellDropped s else s
    { s with cap := { s.cap with cur := none, table := s.cap.table.filter fun r => r.ident != c.ident } }

/-! ## Run state and its notices -/

/-- The run state set, and reported to the rasterizer (R90, R136). -/
def setRunState (r : RunState) (s : State) : State :=
  { s with cap := { s.cap with runState := r }, ras := { s.ras with runView := r } }

/-- RunState offered (R90). -/
def offerRunState (s : State) : State :=
  offer (.runState s.cap.runState s.cap.capNo (finishedCount s)) s

/-- AcqDone offered (R91). -/
def offerAcqDone (endedBy : Nat) (s : State) : State :=
  offer (.acqDone s.cap.capNo endedBy (finishedCount s)
    ((s.cap.table.filter fun r => r.state == .damaged).length)) s

/-- The watermark check (R93). -/
def checkWatermark (s : State) : State :=
  if s.cap.watermark ≠ 0 ∧ s.cap.watermark ≤ finishedCount s then
    offer (.segmentsReady s.cap.watermark s.cap.capNo) { s with cap := { s.cap with watermark := 0 } }
  else s

/-! ## Completion (R79, R81, R82) -/

/-- A sequence's last segment has finished: Finishing, or through it to Stopped when the segment is Damaged
(R82). -/
def finishSequence (complete : Bool) (s : State) : State :=
  if complete then offerRunState (requestRedraw (setRunState .finishing s))
  else offerAcqDone 1 (offerRunState (requestRedraw (setRunState .stopped s)))

/-- The next step by run state after a completion (R81 step 4, R82). -/
def afterCompletion (c : CurSegment) (d : Descriptor) (complete : Bool) (s : State) : State :=
  let alone : State :=
    { s with cap := { s.cap with table := s.cap.table.filter fun r => r.ident == c.ident } }
  match s.cap.runState with
  | .running => beginSegment 1 (1 - c.buffer) alone
  | .sequence =>
    let s := if d.n = 1 then alone else s
    let finished := finishedCount s
    if finished < d.n then beginSegment (finished + 1) finished s else finishSequence complete s
  | .stopped | .finishing => s

/-- The damaged channels of the segment with an identity. -/
def damagedOf (s : State) (ident : Nat) : List Nat :=
  match s.cap.table.find? fun r => r.ident == ident with
  | some r => r.damaged
  | none => []

/-- The current segment completes (R79, R81). -/
def completeSegment (s : State) : State :=
  match s.cap.cur, s.cap.desc with
  | some c, some d =>
    let serial := s.cap.serial + 1
    let bad := damagedOf s c.ident
    let complete := bad.isEmpty
    let s : State := { s with cap := { s.cap with
      serial := serial, cur := none
      table := updateRecord c.ident
        (fun r => { r with serial := some serial, state := if complete then .complete else .damaged })
        s.cap.table } }
    let s :=
      if complete then appendDraw serial s
      else offer (.damaged serial c.index bad)
        { s with cap := { s.cap with damagedCount := satSucc top32 s.cap.damagedCount } }
    checkWatermark (afterCompletion c d complete s)
  | _, _ => s

/-- The segment completes once its last point is written and none of its bursts is left in the gather queue
(R79). -/
def checkDrained (s : State) : State :=
  match s.cap.cur with
  | some c =>
    if c.phase = .draining ∧ (s.cap.gather.all fun b => b.ident != c.ident) = true then completeSegment s
    else s
  | none => s

/-- After its last point a segment forms no more, its last bursts leave assembly, and it may complete (R79). -/
def finishWriting (c : CurSegment) (s : State) : State :=
  checkDrained (flushAssembly (setCur { c with phase := .draining } s))

/-- PostFill ends when no point is left to write. -/
def checkPostFill (s : State) : State :=
  match s.cap.cur with
  | some c => if c.phase = .postFill ∧ c.remaining = 0 then finishWriting c s else s
  | none => s

/-- A forced trigger taken outside the entry to Armed (R62, R63). -/
def forceAccept (s : State) : State := checkPostFill (acceptTrigger false s)

/-- The point of a full group is written, and the segment moves on by its phase (R74). -/
def formPoint (d : Descriptor) (c : CurSegment) (groups : List Group) (s : State) : State :=
  let s := putPoints d c groups s
  let c := { c with wpos := (c.wpos + 1) % d.lEff, formed := 0, groups := [] }
  match c.phase with
  | .preFill => if c.wpos = d.t then enterArmed c s else setCur c s
  | .armed => setCur { c with armedAny := true } s
  | .postFill => checkPostFill (setCur { c with remaining := c.remaining - 1 } s)
  | .holding | .draining => s

/-- The segment's phase forms points (R69). -/
def formsPoints : SegPhase → Bool
  | .preFill | .armed | .postFill => true
  | .holding | .draining => false

/-- The capture controller takes one tick's codes (R69). -/
def captureTick (adc : List Nat) (s : State) : State :=
  match s.cap.cur, s.cap.desc with
  | some c, some d =>
    if formsPoints c.phase then
      let codes := match d.input with
        | .adc => adc
        | .pattern => patternCodes s.trig.timestamp
      let groups := addCodes c.formed c.groups codes
      if c.formed + 1 < d.d then setCur { c with formed := c.formed + 1, groups := groups } s
      else formPoint d c groups s
    else s
  | _, _ => s

/-! ## Run control -/

/-- A new descriptor taken from the live setup (R67). -/
def takeDescriptor (s : State) : State :=
  { s with cap := { s.cap with
      capNo := s.cap.capNo + 1
      desc := some (descriptorOf (s.cap.capNo + 1) s.cap.input s.setup.values)
      table := [], settingsDiffer := false, maskStopMark := false } }

/-- The run state a run begins in: Running when N is 1, Sequence when it is greater (R83, R87). -/
def stateForTarget (s : State) : RunState := if sequenceTarget s = 1 then .running else .sequence

/-- A new capture: descriptor taken and segment 1 begun in buffer 0 (R67). -/
def startCapture (s : State) : State := beginSegment 1 0 (takeDescriptor s)

/-- A stopped capture can resume (R83). -/
def canResume (s : State) : Bool :=
  match s.cap.desc with
  | some d => finishedCount s < d.n && !s.cap.settingsDiffer && !s.cap.maskStopMark
  | none => false

/-- Run (R83): the state after it, and the result of its Done reply. -/
def captureRun (s : State) : State × Nat :=
  match s.cap.runState with
  | .stopped =>
    let s : State := { s with cap := { s.cap with failLatch := false } }
    if canResume s then
      let k := finishedCount s
      let s := beginSegment (k + 1) k s
      (offerRunState (setRunState (stateForTarget s) s), 1)
    else
      let s := startCapture s
      (offerRunState (setRunState (stateForTarget s) s), 0)
  | .running | .sequence | .finishing => (s, 2)

/-- Stop (R84). -/
def captureStop (s : State) : State :=
  match s.cap.runState with
  | .stopped => s
  | .running | .sequence => offerRunState (setRunState .stopped (dropCurrent s))
  | .finishing => offerAcqDone 2 (offerRunState (setRunState .stopped (dropCurrent s)))

/-- Single (R85). -/
def captureSingle (s : State) : State :=
  let s : State := { s with cap := { s.cap with failLatch := false } }
  match s.cap.runState with
  | .running =>
    let s : State := { s with cap := { s.cap with desc := s.cap.desc.map fun d => { d with n := 1 } } }
    offerRunState (setRunState .sequence s)
  | .stopped | .sequence | .finishing =>
    let s := if s.cap.runState = .finishing then offerAcqDone 2 s else s
    offerRunState (setRunState .sequence (startCapture (dropCurrent s)))

/-- A capture change (R87). -/
def captureChange (s : State) : State :=
  match s.cap.runState with
  | .running =>
    let s := startCapture (dropCurrent s)
    offerRunState (setRunState (stateForTarget s) s)
  | .sequence => offerRunState (setRunState .sequence (startCapture (dropCurrent s)))
  | .finishing =>
    let s := setRunState .stopped s
    offerAcqDone 3 (offerRunState { s with cap := { s.cap with settingsDiffer := true } })
  | .stopped => { s with cap := { s.cap with settingsDiffer := true } }

/-- A mask stop at the capture controller (R89). -/
def captureMaskStop (s : State) : State :=
  let s : State := { s with cap := { s.cap with failLatch := true, maskStopMark := true } }
  match s.cap.runState with
  | .stopped => s
  | .running | .sequence => offerRunState (setRunState .stopped (dropCurrent s))
  | .finishing => offerAcqDone 4 (offerRunState (setRunState .stopped (dropCurrent s)))

/-- The serial of the sequence's final segment: the last finished record (R88). -/
def finalSerial (s : State) : Option Word32 := ((finishedRecords s).getLast?).bind (·.serial)

/-- A displayed event (R88). -/
def captureDisplayed (s : State) (serial : Word32) : State :=
  let ends := s.cap.runState == .finishing && finalSerial s == some serial
  let s : State := { s with cap := { s.cap with
    table := s.cap.table.map fun r =>
      if r.serial = some serial ∧ r.state ≠ .filling then { r with displayed := true } else r } }
  if ends then offerAcqDone 0 (offerRunState (setRunState .stopped s)) else s

/-- The input select (R72): a change is a capture change. -/
def captureSetInput (input : InputSel) (s : State) : State :=
  if input = s.cap.input then s else captureChange { s with cap := { s.cap with input := input } }

/-- The watermark armed or disarmed, and checked at once when armed (R93). -/
def captureSetWatermark (k : Nat) (s : State) : State :=
  checkWatermark { s with cap := { s.cap with watermark := k } }

end Sys2Proof.Machine
end

