-- ==== Sys2Proof/Machine/Trace.lean ====
section
/-! DEFINITION. The arithmetic of a trace: which bursts hold a run of points, which row a code lies on, and each column's vector
extent and hit set (R121 to R127, R190). -/

namespace Sys2Proof.Machine

/-! ## Bursts of a run of points (R128, R190) -/

/-- The burst reads of one stretch of a block, bytes `lo` to `hi - 1`, from the lowest unit to the highest. -/
def stretchReads (base lo hi : Nat) : List BurstRead :=
  if hi ≤ lo then []
  else
    (List.range ((hi - 1) / 64 - lo / 64 + 1)).map fun i =>
      let u := (lo / 64 + i) * 64
      { addr := base + u, skip := max lo u - u, n := min hi (u + 64) - max lo u }

/-- The burst reads of `count` points from `first`, in record order, of a block whose ring starts at `start`
(R190). -/
def runReads (base lEff b start first count : Nat) : List BurstRead :=
  let pos := (start + first) % lEff
  let n1 := min count (lEff - pos)
  stretchReads base (pos * b) ((pos + n1) * b) ++ stretchReads base 0 ((count - n1) * b)

/-- The wanted bytes of a burst. -/
def wantedBytes (w : BurstRead) (data : List Byte) : List Byte := (data.drop w.skip).take w.n

/-! ## Rows (R122) -/

/-- A row, and whether it was clipped at the top or the bottom. -/
structure TraceRow where
  row : Nat
  clipTop : Bool
  clipBottom : Bool
  deriving DecidableEq, Repr

/-- The row of a code on a channel (R122). -/
def codeRow (position : Int) (invert : Bool) (code : Nat) : TraceRow :=
  let h := (if invert then -2 else 2) * ((code : Int) - 128) + position
  let r := 200 - h
  if r < 0 then ⟨0, true, false⟩
  else if 399 < r then ⟨399, false, true⟩
  else ⟨r.toNat, false, false⟩

/-- The codes of the points in a byte string: one each, or the least and the greatest in Peak mode (R70). -/
def pointCodes (b : Nat) : List Byte → List (Nat × Nat)
  | [] => []
  | x :: xs =>
    if b = 2 then
      match xs with
      | y :: ys => (x.toNat, y.toNat) :: pointCodes b ys
      | [] => []
    else (x.toNat, x.toNat) :: pointCodes b xs

/-- A point's two rows: of its least and of its greatest code. The second is its last written row (R122). -/
abbrev PointRows := TraceRow × TraceRow

/-- The rows of points. -/
def pointRows (position : Int) (invert : Bool) (codes : List (Nat × Nat)) : List PointRows :=
  codes.map fun c => (codeRow position invert c.1, codeRow position invert c.2)

/-- A point had code 0 or 255 (R130). -/
def atRail (c : Nat × Nat) : Bool := c.1 == 0 || c.1 == 255 || c.2 == 0 || c.2 == 255

/-! ## Columns -/

/-- The extent formed from some rows, with its clip marks (R122, R123). -/
def extentOf (rows : List TraceRow) : Extent :=
  { top := rows.foldl (fun m r => min m r.row) 399, bottom := rows.foldl (fun m r => max m r.row) 0
    clipTop := rows.any (·.clipTop), clipBottom := rows.any (·.clipBottom) }

/-- A column: its vector extent and the row ranges it hits. -/
abbrev Column := Extent × List (Nat × Nat)

/-- The row range of an extent. -/
def spanOf (e : Extent) : List (Nat × Nat) := [(e.top, e.bottom)]

/-- The least and the greatest row of some rows, as hits. -/
def endsOf (e : Extent) : List (Nat × Nat) := [(e.top, e.top), (e.bottom, e.bottom)]

/-- No rows: what a point outside the record stands for. -/
def noRow : PointRows := (⟨0, false, false⟩, ⟨0, false, false⟩)

/-- Column `j` in compression (R123, R124). `off` is the place of the window's first point in `rows`: 1 when the
point before it was read too. -/
def compressedColumn (vector : Bool) (w off : Nat) (rows : List PointRows) (j : Nat) : Column :=
  let lo := j * w / 1000 + off
  let hi := (j + 1) * w / 1000 + off
  let own := ((rows.drop lo).take (hi - lo)).flatMap fun p => [p.1, p.2]
  let joining := if 0 < lo then [(rows.getD (lo - 1) noRow).2] else []
  let extent := extentOf (joining ++ own)
  (extent, if vector then spanOf extent else endsOf (extentOf own))

/-- The point that owns column `c` in expansion: the last with floor(i × 1000 / W) ≤ c (R125). -/
def ownerOf (w c : Nat) : Nat := ((c + 1) * w - 1) / 1000

/-- The first column of point `i` in expansion (R125). -/
def firstColumn (w i : Nat) : Nat := i * 1000 / w

/-- A quotient rounded to the nearest whole number, halves away from zero (R125). -/
def roundAway (num : Int) (den : Nat) : Int :=
  let q := ((2 * num.natAbs + den) / (2 * den) : Nat)
  if num < 0 then -q else q

/-- What column `c` interpolates between: its point's rows, the next point's (its own when there is none), m and
g (R125). -/
def between (w off : Nat) (rows : List PointRows) (c : Nat) : PointRows × PointRows × Nat × Nat :=
  let i := ownerOf w c
  let p := rows.getD (i + off) noRow
  (p, rows.getD (i + 1 + off) p, c - firstColumn w i, firstColumn w (i + 1) - firstColumn w i)

/-- The interpolated row of column `c` (R125). -/
def interpolatedRow (w off : Nat) (rows : List PointRows) (c : Nat) : Nat :=
  let (p, q, m, g) := between w off rows c
  ((p.1.row : Int) + roundAway (((q.1.row : Int) - p.1.row) * m) g).toNat

/-- The points' rows column `c`'s interpolated row is formed from (R126). -/
def formingRows (w off : Nat) (rows : List PointRows) (c : Nat) : List TraceRow :=
  let (p, q, m, _) := between w off rows c
  if 0 < m then [p.1, q.1] else [p.1]

/-- The rows before column 0: the last written row of the point before the window, if it was read (R126). -/
def rowBefore (off : Nat) (rows : List PointRows) : List TraceRow :=
  if off = 0 then [] else [(rows.getD (off - 1) noRow).2]

/-- Column `c` in expansion, Sample and Mean modes (R125, R126). -/
def expandedColumn (vector : Bool) (w off : Nat) (rows : List PointRows) (c : Nat) : Column :=
  let own := interpolatedRow w off rows c
  let before := if c = 0 then (rowBefore off rows).map (·.row) else [interpolatedRow w off rows (c - 1)]
  let forming := formingRows w off rows c ++
    (if c = 0 then rowBefore off rows else formingRows w off rows (c - 1))
  let marks := extentOf forming
  let extent : Extent :=
    { marks with top := before.foldl min own, bottom := before.foldl max own }
  let first := c == firstColumn w (ownerOf w c)
  (extent, if vector then spanOf extent else if first then [(own, own)] else [])

/-- Column `c` in expansion, Peak mode: the point's span, joined to nothing (R126). -/
def expandedPeakColumn (vector : Bool) (w off : Nat) (rows : List PointRows) (c : Nat) : Column :=
  let p := rows.getD (ownerOf w c + off) noRow
  let extent := extentOf [p.1, p.2]
  let first := c == firstColumn w (ownerOf w c)
  (extent, if vector then spanOf extent else if first then endsOf extent else [])

/-- The 1000 columns of a channel (R123 to R126). -/
def traceColumns (vector peak : Bool) (w off : Nat) (rows : List PointRows) : List Column :=
  (List.range 1000).map
    (if 1000 ≤ w then compressedColumn vector w off rows
     else if peak then expandedPeakColumn vector w off rows
     else expandedColumn vector w off rows)

/-! ## Grading (R127) -/

/-- A cell of a plane, by its offset r × 1000 + c, is hit. -/
def cellHit (hits : List (List (Nat × Nat))) (offset : Nat) : Bool :=
  (hits.getD (offset % 1000) []).any fun p => p.1 ≤ offset / 1000 && offset / 1000 ≤ p.2

/-- A burst of a plane, by its number, holds a hit cell. -/
def burstHit (hits : List (List (Nat × Nat))) (u : Nat) : Bool :=
  (List.range 64).any fun i => cellHit hits (u * 64 + i)

/-- The lanes that grade the hit cells of a burst: min(255, v + grade) (R127). -/
def gradeLanes (hits : List (List (Nat × Nat))) (grade u : Nat) (data : List Byte) : Lanes :=
  (List.range 64).map fun i =>
    if cellHit hits (u * 64 + i) then some (BitVec.ofNat 8 (min 255 ((data.getD i 0).toNat + grade))) else none

/-- The decayed value of a cell: v − ceil(v / 8) (R120). -/
def decayByte (v : Byte) : Byte := BitVec.ofNat 8 (v.toNat - (v.toNat + 7) / 8)

end Sys2Proof.Machine
end

