-- ==== Sys2Proof/Machine/Readout.lean ====
section
/-! DEFINITION. The readout unit: GetSegments, ReadWave, the wait list and the pin (R186 to R192). -/

namespace Sys2Proof.Machine

/-- The readout unit replaced. -/
def setReadout (u : Readout) (s : State) : State := { s with rd := u }

/-! ## GetSegments (R186) -/

/-- A record's state on the wire (R186). -/
def recordStateCode : RecordState → Nat
  | .filling => 0 | .complete => 1 | .damaged => 2

/-- A mask result on the wire (R186). -/
def maskResultCode : MaskResult → Nat
  | .unchecked => 0 | .pass => 1 | .fail => 2 | .skipped => 3

/-- The 25 bytes of a record (R186). -/
def recordBytes (r : SegRecord) : List Byte :=
  leBytes 2 r.index ++ leBytes 4 (r.serial.getD 0).toNat ++ leBytes 2 r.buffer ++
    [BitVec.ofNat 8 (recordStateCode r.state), channelFlags r.damaged] ++ leBytes 4 (r.start.getD 0) ++
    leBytes 8 (r.trigTime.getD 0).toNat ++
    [BitVec.ofNat 8 (flagBits [r.trigTime.isSome, r.forced]), BitVec.ofNat 8 (maskResultCode r.mask),
      boolByte r.displayed]

/-- The 40 bytes of the summary (R186). -/
def summaryBytes (desc : Option Descriptor) (finished returned : Nat) : List Byte :=
  match desc with
  | none => List.replicate 40 0
  | some d =>
    1 :: leBytes 4 d.capNo.toNat ++
      [channelFlags d.channels, BitVec.ofNat 8 d.tbScale, BitVec.ofNat 8 d.mode, BitVec.ofNat 8 d.b] ++
      leBytes 4 d.lEff ++ leBytes 8 d.d ++ leBytes 4 d.t ++ leBytes 2 d.n ++
      [BitVec.ofNat 8 (inputCode d.input)] ++ d.scales.map (BitVec.ofNat 8) ++
      d.couplings.map (BitVec.ofNat 8) ++ [BitVec.ofNat 8 (flagBits (d.bwLimits.map (· != 0)))] ++
      leBytes 2 finished ++ leBytes 1 returned

/-- The records a GetSegments request selects. The table keeps them in ascending index, a finished record before
a Filling one (R80, R186). -/
def selectRecords (table : List SegRecord) (first count : Nat) : List SegRecord :=
  table.filter fun r => first ≤ r.index && r.index < first + count

/-- GetSegments (R186). -/
def serveGetSegments (r : Request) (s : State) : State :=
  let first := fieldAt r.payload 0 2
  let count := byteAt r.payload 2
  if first < 1 ∨ 4096 < first ∨ count < 1 ∨ 64 < count then replyRefused r.tag r.kind .badValue .none s
  else
    let records := if s.cap.desc.isSome then selectRecords s.cap.table first count else []
    replyDone r.tag
      (summaryBytes s.cap.desc (finishedCount s) records.length ++ records.flatMap recordBytes) s

/-! ## The start of a read (R188, R189) -/

/-- The kind of ReadWave, for its refusals. -/
def kindReadWave : Byte := 0x35

/-- A read that passes its checks, with its range pinned. -/
structure ReadStart where
  op : ReadOp
  pin : Nat × Nat
  deriving DecidableEq, Repr

/-- The checks of R188, in their order. -/
def checkRead (s : State) (q : ReadReq) : Except Reason ReadStart :=
  match finishedRecord s.cap.table q.serial, s.cap.desc with
  | some rec, some d =>
    let ch := q.channel + 1
    if d.channels.contains ch = false then .error .badValue
    else if d.b = 2 ∧ 1024 < q.count then .error .badValue
    else if d.lEff < q.first + q.count then .error .range
    else if rec.state ≠ .complete ∧ q.damagedToo = false then .error .damaged
    else
      .ok {
        op := {
          req := q, b := d.b, channelDamaged := rec.damaged.contains ch
          todo := runReads (blockAddr d rec.buffer ch) d.lEff d.b (rec.start.getD 0) q.first q.count
          placed := [], got := [] }
        pin := (rec.buffer * perSegment d, (rec.buffer + 1) * perSegment d - 1) }
  | _, _ => .error .stale

/-- The oldest request of the wait list starts; one that is refused lets the next start in the same event
(R188). -/
def startReads : List ReadReq → State → State
  | [], s => setReadout { s.rd with wait := [] } s
  | q :: rest, s =>
    match checkRead s q with
    | .error reason => startReads rest (replyRefused q.tag kindReadWave reason .none s)
    | .ok st => setReadout { inFlight := some st.op, pin := some st.pin, wait := rest } s

/-- The request a ReadWave payload spells (R187). -/
def readReqOf (r : Request) : ReadReq :=
  { tag := r.tag, serial := BitVec.ofNat 32 (fieldAt r.payload 0 4), channel := byteAt r.payload 4
    first := fieldAt r.payload 5 4, count := fieldAt r.payload 9 2, damagedToo := byteAt r.payload 11 == 1 }

/-- The arrival checks of ReadWave pass (R187). -/
def readArrivalOk (p : List Byte) : Bool :=
  byteAt p 4 ≤ 3 && byteAt p 11 ≤ 1 && 1 ≤ fieldAt p 9 2 && fieldAt p 9 2 ≤ 2048

/-- ReadWave (R187). -/
def serveReadWave (r : Request) (s : State) : State :=
  if readArrivalOk r.payload then
    if s.rd.inFlight.isNone && s.rd.wait.isEmpty then startReads [readReqOf r] s
    else setReadout { s.rd with wait := s.rd.wait ++ [readReqOf r] } s
  else replyRefused r.tag r.kind .badValue .none s

/-! ## Bursts and the end of a read (R190, R191) -/

/-- The places of the Readout queue (R98). -/
def readoutPlaces : Nat := 8

/-- Bursts placed while the Readout queue has a free place (R98, R190). -/
def fillReadout : Nat → State → State
  | 0, s => s
  | n + 1, s =>
    if s.mem.readQ.length < readoutPlaces then
      match s.rd.inFlight with
      | some op =>
        match op.todo with
        | b :: rest =>
          fillReadout n
            { s with
              mem := { s.mem with readQ := s.mem.readQ ++ [{ addr := b.addr, write := none }] }
              rd := { s.rd with inFlight := some { op with todo := rest, placed := op.placed ++ [b] } } }
        | [] => s
      | none => s
    else s

/-- The Done payload of a read (R191). -/
def readPayload (op : ReadOp) : List Byte :=
  leBytes 4 op.req.serial.toNat ++ leBytes 1 op.req.channel ++ leBytes 4 op.req.first ++
    leBytes 2 op.req.count ++ leBytes 1 op.b ++ [boolByte op.channelDamaged] ++ op.got

/-- The pin is released and the capture controller told: a segment in Holding may leave (R189). -/
def releasePin (s : State) : State := leaveHolding (setReadout { s.rd with pin := none } s)

/-- The read is complete (R191). -/
def endRead (op : ReadOp) (s : State) : State :=
  let s := releasePin (replyDone op.req.tag (readPayload op) (setReadout { s.rd with inFlight := none } s))
  startReads s.rd.wait s

/-- A Readout request has been granted (R99, R191). -/
def readGranted (data : List Byte) (s : State) : State :=
  match s.rd.inFlight with
  | none => s
  | some op =>
    match op.placed with
    | [] => s
    | w :: ws =>
      let op := { op with placed := ws, got := op.got ++ wantedBytes w data }
      if op.todo.isEmpty && ws.isEmpty then endRead op s
      else setReadout { s.rd with inFlight := some op } s

end Sys2Proof.Machine
end

