-- ==== Sys2Proof/Machine/Raster.lean ====
section
/-! DEFINITION. The rasterizer's passes: their start, the building of the planes, the drawing of segments, their end, and the
displayed events (R113 to R131, R136). The order of a pass's own DRAM requests is chosen (log 16). -/

namespace Sys2Proof.Machine

/-! ## Planes in the DRAM (R97) -/

/-- The first address of a persistence set (R97). -/
def setBase : PlaneSet → Nat
  | .setA => 260046848
  | .setB => 261646848

/-- The other set. -/
def otherSet : PlaneSet → PlaneSet
  | .setA => .setB
  | .setB => .setA

/-- The bytes of a channel plane (R97). -/
def planeBytes : Nat := 400000

/-- The bursts of a plane and of a set. -/
def planeBursts : Nat := 6250
def setBursts : Nat := 25000

/-- The first address of channel `n`'s plane (R97). -/
def planeBase (set : PlaneSet) (n : Nat) : Nat := setBase set + (n - 1) * planeBytes

/-- A burst of zeros. -/
def zeroLanes : Lanes := List.replicate 64 (some 0)

/-- The rasterizer replaced. -/
def setRaster (r : Raster) (s : State) : State := { s with ras := r }

/-! ## The start of a pass (R117 to R119) -/

/-- Decay is due at this frame start (R117). -/
def decayDue (s : State) : Bool :=
  s.param idPersist == 1 && s.scan.frame.toNat % (s.param idDecay).toNat == 0

/-- The display values latched at the start of a pass (R118). -/
def latchDisplay (s : State) : Latched :=
  { persist := s.param idPersist, decay := s.param idDecay, style := s.param idStyle
    grade := s.param idGrade, zoom := s.param idZoom, hpos := s.param idHpos, segment := s.param idSegment
    enable := [1, 2, 3, 4].map fun n => s.param (idEnable n) != 0
    position := [1, 2, 3, 4].map fun n => s.param (idPosition n)
    invert := [1, 2, 3, 4].map fun n => s.param (idInvert n) != 0
    decayDue := decayDue s, clear := s.ras.pendingClear, redraw := s.ras.redraw }

/-- The records DISP.SEGMENT selects for a redraw (R134). -/
def redrawRecords (s : State) (segment : Int) : List SegRecord :=
  let finished := finishedRecords s
  let chosen :=
    if segment = 0 then finished
    else
      let greatest := finished.foldl (fun m r => max m r.index) 0
      let k := min segment.toNat greatest
      finished.filter fun r => r.index == k
  chosen.filter fun r => r.state == .complete

/-- A drawing-list item of a record. -/
def drawItem (taken : Bool) (serial : Word32) (r : SegRecord) : DrawItem :=
  { serial := serial, index := r.index, buffer := r.buffer, start := r.start.getD 0, taken := taken }

/-- The redraw items of a pass, in ascending index (R119). -/
def redrawItems (s : State) (segment : Int) : List DrawItem :=
  (redrawRecords s segment).map fun r => drawItem false (r.serial.getD 0) r

/-- A serial taken into the drawing list: marked in its place, or added at the end (R119). -/
def takeSerial (table : List SegRecord) (items : List DrawItem) (serial : Word32) : List DrawItem :=
  if items.any fun i => i.serial == serial then
    items.map fun i => if i.serial = serial then { i with taken := true } else i
  else
    match finishedRecord table serial with
    | some r => items ++ [drawItem true serial r]
    | none => items

/-- The serials a pass takes from the draw queue: all, or under Off persistence the newest alone (R119). -/
def takenSerials (persist : Int) (queue : List Word32) : List Word32 :=
  if persist = 0 then queue.drop (queue.length - 1) else queue

/-- The serials whose segments become Skipped at a pass start (R119). -/
def passedOver (persist : Int) (queue : List Word32) : List Word32 :=
  if persist = 0 then queue.take (queue.length - 1) else []

/-- The drawing list of a pass (R119). -/
def drawingList (s : State) (l : Latched) : List DrawItem :=
  (takenSerials l.persist s.ras.drawQueue).foldl (takeSerial s.cap.table)
    (if l.redraw then redrawItems s l.segment else [])

/-- A pass starts (R118, R119): it builds its planes first. -/
def startPass (s : State) : State :=
  let l := latchDisplay s
  let items := drawingList s l
  let s := skipAll (passedOver l.persist s.ras.drawQueue) s
  setRaster { s.ras with
    state := .drawing, drawQueue := [], pendingClear := false, redraw := false
    pass := some { latched := l, desc := s.cap.desc, todo := items, drawn := [], extents := []
                   drawnChannels := [], overChannels := [] }
    displayed := if items.isEmpty then s.ras.displayed else s.cap.desc.map (·.lEff)
    stage := .build 0, reads := [], wanted := [], ready := [] } s

/-- The draw queue without the serials whose record the table no longer holds (R117). -/
def dropStale (s : State) : State :=
  setRaster { s.ras with
    drawQueue := s.ras.drawQueue.filter fun n => (finishedRecord s.cap.table n).isSome } s

/-- There is work for a pass (R117). -/
def passWork (s : State) : Bool :=
  !s.ras.drawQueue.isEmpty || s.ras.redraw || s.ras.pendingClear || decayDue s

/-- An Idle rasterizer at a frame start (R117). -/
def judgePass (s : State) : State :=
  let s := dropStale s
  if passWork s then startPass s else s

/-- The displayed events of a pass, in list order (R131). -/
def displayedEvents (s : State) : State :=
  match s.ras.pass with
  | some p => p.drawn.foldl (fun s i => captureDisplayed s i.serial) s
  | none => s

/-- The frame start offered to the rasterizer (R116). -/
def rasterFrameStart (s : State) : State :=
  match s.ras.state with
  | .ready =>
    let s := displayedEvents s
    judgePass (setRaster { s.ras with state := .idle, pass := none } s)
  | .idle => judgePass s
  | .drawing | .clearing => s

/-! ## The stages of a pass -/

/-- How the plane of a channel is built (R120). -/
inductive PlaneBuild where
  | cleared | copied | decayed
  deriving DecidableEq, Repr

/-- The table of R120. -/
def planeBuild (l : Latched) (n : Nat) : PlaneBuild :=
  if l.enable.getD (n - 1) false = false then .cleared
  else if l.persist = 0 ∨ l.clear = true ∨ l.redraw = true then .cleared
  else if l.persist = 1 ∧ l.decayDue = true then .decayed
  else .copied

/-- The latched values of the pass in flight. -/
def passLatched (s : State) : Option Latched := s.ras.pass.map (·.latched)

/-- The channels a segment of the pass is drawn on: On in the latched values and in the channel set (R128). -/
def drawChannels (p : Pass) : List Nat :=
  match p.desc with
  | some d => d.channels.filter fun n => p.latched.enable.getD (n - 1) false
  | none => []

/-- The pass's window: W and S (R121). -/
def passWindow (s : State) (l : Latched) : Nat × Nat :=
  let lDisp := displayedLength s
  let w := windowWidth lDisp l.zoom.toNat
  (w, min l.hpos.toNat (lDisp - w))
where
  /-- L_disp (R119). -/
  displayedLength (s : State) : Nat := s.ras.displayed.getD (valuesLength s.setup.values)

/-- One when the point before the window is read too (R128). -/
def windowOffset (start : Nat) : Nat := if 0 < start then 1 else 0

/-- How many points drawing a channel reads: the window, the point before it, and in expansion the one after it
when it exists (R128). -/
def pointsRead (lDisp w s : Nat) : Nat :=
  windowOffset s + w + (if w < 1000 ∧ s + w < lDisp then 1 else 0)

/-- The reads of a channel's points begin (R128). -/
def startPoints (it : DrawItem) (d : Descriptor) (l : Latched) (ch : Nat) (rest : List Nat) (s : State) :
    State :=
  let (w, first) := passWindow s l
  let off := windowOffset first
  setRaster { s.ras with
    stage := .points ch rest []
    reads := runReads (blockAddr d it.buffer ch) d.lEff d.b it.start (first - off) (pointsRead d.lEff w first)
    wanted := [], ready := [] } s

/-- The end of a pass (R130). -/
def endPass (s : State) : State :=
  match s.ras.pass with
  | some p =>
    setRaster { s.ras with
      state := .ready, stage := .none
      overRange := [1, 2, 3, 4].map fun n =>
        if p.drawnChannels.contains n then p.overChannels.contains n else s.ras.overRange.getD (n - 1) false } s
  | none => s

/-- The segment at the head of the list has been drawn: it joins what the pass has drawn. -/
def itemDrawn (it : DrawItem) (rest : List DrawItem) (s : State) : State :=
  setRaster { s.ras with
    pass := s.ras.pass.map fun p => { p with todo := rest, drawn := p.drawn ++ [it] } } s

/-- A taken segment's extents handed to the mask checker (R129). The pass waits until it has taken them, the last
segment's too (R130; log 24). -/
def handExtents (it : DrawItem) (s : State) : State :=
  let extents := match s.ras.pass with | some p => p.extents | none => []
  setRaster { s.ras with toMask := some (it.serial, extents), stage := .handed } s

/-- The pass goes on with the segments left in its list; one of which no channel is drawn needs no reads (R128 to
R130). -/
def nextItem : List DrawItem → State → State
  | [], s => endPass s
  | it :: rest, s =>
    match s.ras.pass with
    | none => s
    | some p =>
      let s := setRaster { s.ras with pass := some { p with todo := it :: rest, extents := [] } } s
      match drawChannels p, p.desc with
      | ch :: more, some d => startPoints it d p.latched ch more s
      | _, _ =>
        let s := itemDrawn it rest s
        if it.taken then handExtents it s else nextItem rest s

/-- The segment being drawn is drawn on every channel (R129). -/
def segmentDrawn (s : State) : State :=
  match s.ras.pass with
  | some p =>
    match p.todo with
    | it :: rest =>
      let s := itemDrawn it rest s
      if it.taken then handExtents it s else nextItem rest s
    | [] => endPass s
  | none => s

/-- A channel of the segment is drawn; the next one's points are read (R128). -/
def channelDrawn (rest : List Nat) (s : State) : State :=
  match rest, s.ras.pass with
  | ch :: more, some p =>
    match p.todo, p.desc with
    | it :: _, some d => startPoints it d p.latched ch more s
    | _, _ => segmentDrawn s
  | _, _ => segmentDrawn s

/-- The columns of a channel from the bytes of its points (R122 to R126), and whether a point of the window was at
a rail (R130). -/
def channelColumns (s : State) (p : Pass) (ch : Nat) (got : List Byte) : List Column × Bool :=
  let l := p.latched
  let b := match p.desc with | some d => d.b | none => 1
  let (w, first) := passWindow s l
  let off := windowOffset first
  let codes := pointCodes b got
  (traceColumns (l.style == 0) (b == 2) w off
      (pointRows (l.position.getD (ch - 1) 0) (l.invert.getD (ch - 1) false) codes),
    ((codes.drop off).take w).any atRail)

/-- The points of a channel are all read: its hit cells are graded next (R127). -/
def startGrade (ch : Nat) (rest : List Nat) (got : List Byte) (s : State) : State :=
  match s.ras.pass with
  | none => s
  | some p =>
    let (columns, railed) := channelColumns s p ch got
    let hits := columns.map (·.2)
    let base := planeBase (otherSet s.scan.front) ch
    let reads : List BurstRead :=
      ((List.range planeBursts).filter (burstHit hits)).map fun u => { addr := base + u * 64, skip := 0, n := 64 }
    let s := setRaster { s.ras with
      stage := .grade ch rest hits, reads := reads, wanted := [], ready := []
      pass := some { p with
        extents := p.extents ++ [(ch, columns.map (·.1))]
        drawnChannels := if p.drawnChannels.contains ch then p.drawnChannels else p.drawnChannels ++ [ch]
        overChannels := if railed then p.overChannels ++ [ch] else p.overChannels } } s
    if reads.isEmpty then channelDrawn rest s else s

/-- The clearing of both sets is done: the rasterizer is Idle and scan-out is told (R136, R151). -/
def clearingDone (s : State) : State :=
  setRaster { s.ras with state := .idle, stage := .none } { s with scan := { s.scan with planesCleared := true } }

/-- Every request of the stage has been placed. -/
def stagePlaced (r : Raster) : Bool :=
  r.ready.isEmpty &&
    match r.stage with
    | .clear n => 2 * setBursts ≤ n
    | .build n => setBursts ≤ n
    | .points _ _ _ | .grade _ _ _ => r.reads.isEmpty
    | .none | .handed => false

/-- The stage ends when its last request has been granted. -/
def checkStage (s : State) : State :=
  if stagePlaced s.ras && s.ras.outstanding == 0 then
    match s.ras.stage with
    | .clear _ => clearingDone s
    | .build _ => nextItem (match s.ras.pass with | some p => p.todo | none => []) s
    | .points ch rest got => startGrade ch rest got s
    | .grade _ rest _ => channelDrawn rest s
    | .none | .handed => s
  else s

/-- The pass goes on after the mask checker has taken a segment's extents (R129, R141), and ends then when no segment
is left (R130; log 24). -/
def rasterResume (s : State) : State :=
  match s.ras.stage, s.ras.pass with
  | .handed, some p => nextItem p.todo s
  | _, _ => s

/-! ## Requests and grants -/

/-- The rasterizer's next request, and the rasterizer once it is placed: a write whose data is known, or the
stage's next read or zero write. -/
def rasterNext (s : State) : Option (MemReq × Raster) :=
  let r := s.ras
  match r.ready with
  | w :: ws => some (w, { r with ready := ws })
  | [] =>
    match r.stage with
    | .clear n =>
      if n < 2 * setBursts then
        some ({ addr := setBase .setA + 64 * n, write := some zeroLanes }, { r with stage := .clear (n + 1) })
      else none
    | .build n =>
      match r.pass with
      | some p =>
        if n < setBursts then
          some (if planeBuild p.latched (n / planeBursts + 1) = .cleared then
              { addr := setBase (otherSet s.scan.front) + 64 * n, write := some zeroLanes }
            else { addr := setBase s.scan.front + 64 * n, write := none }, { r with stage := .build (n + 1) })
        else none
      | none => none
    | .points _ _ _ | .grade _ _ _ =>
      match r.reads with
      | b :: bs => some ({ addr := b.addr, write := none }, { r with reads := bs, wanted := r.wanted ++ [b] })
      | [] => none
    | .none | .handed => none

/-- The places of the Raster queue (R98). -/
def rasterPlaces : Nat := 16

/-- Requests placed while the Raster queue has a free place (R98). -/
def fillRaster : Nat → State → State
  | 0, s => s
  | n + 1, s =>
    if s.mem.rasterQ.length < rasterPlaces then
      match rasterNext s with
      | some (q, r) =>
        fillRaster n (setRaster { r with outstanding := r.outstanding + 1 }
          { s with mem := { s.mem with rasterQ := s.mem.rasterQ ++ [q] } })
      | none => s
    else s

/-- The write that follows a read of the build stage: the copied or decayed burst in the back set (R120). -/
def buildWrite (s : State) (l : Latched) (addr : Nat) (data : List Byte) : MemReq :=
  let off := addr - setBase s.scan.front
  let f := if planeBuild l (off / planeBytes + 1) = .decayed then decayByte else id
  { addr := setBase (otherSet s.scan.front) + off, write := some (data.map fun v => some (f v)) }

/-- What a granted read gives the rasterizer (R99). -/
def rasterRead (addr : Nat) (data : List Byte) (s : State) : Raster :=
  let r := s.ras
  match r.stage, r.pass with
  | .build _, some p => { r with ready := r.ready ++ [buildWrite s p.latched addr data] }
  | .points ch rest got, _ =>
    match r.wanted with
    | w :: ws => { r with stage := .points ch rest (got ++ wantedBytes w data), wanted := ws }
    | [] => r
  | .grade ch _ hits, some p =>
    let u := (addr - planeBase (otherSet s.scan.front) ch) / 64
    { r with
      ready := r.ready ++ [{ addr := addr, write := some (gradeLanes hits p.latched.grade.toNat u data) }]
      wanted := r.wanted.tail }
  | _, _ => r

/-- A Raster request has been granted (R99); `data` is what a read found. -/
def rasterGranted (q : MemReq) (data : List Byte) (s : State) : State :=
  let r := if q.write = none then rasterRead q.addr data s else s.ras
  checkStage (setRaster { r with outstanding := r.outstanding - 1 } s)

end Sys2Proof.Machine
end

