-- ==== Sys2Proof/Machine/Mask.lean ====
section
/-! DEFINITION. The mask checker: the zone test, its result and counts, and the Stop action (R141 to R146). -/

namespace Sys2Proof.Machine

/-- A column's extent is outside a zone (R142). -/
def outsideZone (z : Zone) (e : Extent) : Bool :=
  match z with
  | .unbounded => false
  | .bounded top bottom => decide (e.top < top) || decide (bottom < e.bottom) || e.clipTop || e.clipBottom

/-- Zone `z` fails: one of its five columns, 5z to 5z + 4, is outside it (R142). -/
def zoneFailsTest (extents : List Extent) (z : Zone) (num : Nat) : Bool :=
  ((extents.drop (5 * num)).take 5).any (outsideZone z)

/-- The numbers of the failing zones, ascending (R142). -/
def failingZones (zones : List Zone) (extents : List Extent) : List Nat :=
  ((zones.zip (List.range zones.length)).filter fun p => zoneFailsTest extents p.1 p.2).map (·.2)

/-- The tested and failed counts after a test (R143). -/
def countTest (failed : Bool) (c : MaskCounts) : MaskCounts :=
  { tested := satSucc top32 c.tested, failed := if failed then satSucc top32 c.failed else c.failed }

/-- The wire value of MASK.ACTION that stands for Stop. -/
def actionStop : Int := 1

/-- A test that gives Fail: result, counts, MaskFail, and the mask stop when MASK.ACTION is Stop (R143 to
R145). -/
def testFails (serial : Word32) (zones : Nat) (first : Nat) (s : State) : State :=
  let s := setMaskResult serial .fail { s with mask := countTest true s.mask }
  let s := offer (.maskFail serial (s.param idMaskSource).toNat zones first (s.param idMaskAction).toNat) s
  if s.param idMaskAction = actionStop then rasterMaskStop (captureMaskStop s) else s

/-- A segment tested against a mask section (R142, R143). -/
def testSegment (serial : Word32) (zones : List Zone) (extents : List Extent) (s : State) : State :=
  match failingZones zones extents with
  | [] => setMaskResult serial .pass { s with mask := countTest false s.mask }
  | first :: rest => testFails serial (rest.length + 1) first s

/-- The extents handed over for a channel, if the pass drew it (R141). -/
def extentsOf (channel : Nat) (handed : List (Nat × List Extent)) : Option (List Extent) :=
  (handed.find? fun p => p.1 == channel).map (·.2)

/-- Whether a segment's extents are tested, and the test (R141). -/
def judgeExtents (serial : Word32) (handed : List (Nat × List Extent)) (s : State) : State :=
  if (finishedRecord s.cap.table serial).isNone ∨ s.param idMaskEnable = 0 then s
  else
    match s.setup.mask, extentsOf ((s.param idMaskSource).toNat + 1) handed with
    | some zones, some extents => testSegment serial zones extents s
    | _, _ => s

/-- The mask checker takes what has been handed to it, and the rasterizer goes on (R129, R141). -/
def takeExtents (s : State) : State :=
  match s.ras.toMask with
  | none => s
  | some (serial, handed) =>
    rasterResume (judgeExtents serial handed (setRaster { s.ras with toMask := none } s))

/-- ClearMaskCounts (R146). -/
def serveClearMaskCounts (r : Request) (s : State) : State :=
  replyDone r.tag (leBytes 4 s.mask.tested ++ leBytes 4 s.mask.failed) { s with mask := ⟨0, 0⟩ }

end Sys2Proof.Machine
end

