-- ==== Sys2Proof/Machine/ScanOut.lean ====
section
/-! DEFINITION. The scan-out controller: frames and lines, line fetches, composition, the palette, the overlay and the wave area
(R148 to R160). -/

namespace Sys2Proof.Machine

/-- The scan-out controller replaced. -/
def setScan (c : ScanOut) (s : State) : State := { s with scan := c }

/-- Line periods in a frame, and blanking line periods at its start (R148). -/
def framePeriods : Nat := 825
def blankingPeriods : Nat := 25

/-- The active lines (R148), and the pixels of each. -/
def activeLines : Nat := 800
def linePixels : Nat := 1280

/-! ## The fetch (R151) -/

/-- The overlay plane's first address and the bytes of one of its rows (R97). -/
def overlayBase : Nat := 263246848
def overlayRowBytes : Nat := 1280

/-- The bursts that hold bytes `lo` to `hi` of the DRAM, lowest first. -/
def burstsOver (lo hi : Nat) : List Nat :=
  (List.range (hi / 64 - lo / 64 + 1)).map fun i => (lo / 64 + i) * 64

/-- The overlay reads of line `y`, left out while the overlay is being cleared (R151). -/
def overlayReads (clearing : Bool) (y : Nat) : List Nat :=
  if clearing then []
  else burstsOver (overlayBase + y * overlayRowBytes) (overlayBase + y * overlayRowBytes + 1279)

/-- Line `y` crosses the waveform area (R151). -/
def inAreaRows (origin : Nat × Nat) (y : Nat) : Bool := origin.2 ≤ y && y ≤ origin.2 + 399

/-- The plane reads of line `y`, left out until the planes are cleared (R151). -/
def planeReads (cleared : Bool) (front : PlaneSet) (origin : Nat × Nat) (channels : List Nat) (y : Nat) :
    List Nat :=
  if cleared && inAreaRows origin y then
    channels.flatMap fun n =>
      let row := planeBase front n + (y - origin.2) * 1000
      burstsOver row (row + 999)
  else []

/-- The fetch of an active line begins (R151). -/
def beginFetch (y : Nat) (s : State) : State :=
  let channels := enabledChannels s.setup.values
  setScan { s.scan with
    fetch := some {
      line := y, channels := channels, grid := s.param idGrid, origin := s.scan.origin
      reads := overlayReads s.scan.overlayClearing y ++
        planeReads s.scan.planesCleared s.scan.front s.scan.origin channels y
      outstanding := 0, data := [] } } s

/-- The fetch has finished: its last read has been granted (R151). -/
def fetchFinished (f : Fetch) : Bool := f.reads.isEmpty && f.outstanding == 0

/-! ## Composition (R153) -/

/-- A byte of the fetched data, 0 where the fetch left the read out (R151, R156). -/
def fetchedByte (f : Fetch) (addr : Nat) : Nat :=
  match f.data.find? fun p => p.1 == addr / 64 * 64 with
  | some p => byteAt p.2 (addr % 64)
  | none => 0

/-- The winning channel and its cell value: the greatest value, the lowest channel where values are equal
(R153). -/
def bestCell (cells : List (Nat × Nat)) : Option (Nat × Nat) :=
  cells.foldl (fun best c =>
    match best with
    | some b => if b.2 < c.2 then some c else some b
    | none => if 0 < c.2 then some c else none) none

/-- The graticule cells of a style: 0 Full, 1 Axes, 2 None (R153). -/
def onGraticule (grid : Int) (row col : Nat) : Bool :=
  if grid = 0 then col % 100 == 0 || col == 999 || row % 50 == 0 || row == 399
  else if grid = 1 then
    col == 0 || col == 500 || col == 999 || row == 0 || row == 200 || row == 399
  else false

/-- The palette index of a cell of the waveform area (R153, 2 to 4). `cells` are the latched channels' cells,
in ascending channel number. -/
def areaIndex (grid : Int) (cells : List (Nat × Nat)) (row col : Nat) : Nat :=
  match bestCell cells with
  | some (n, v) => 16 * n + v / 16
  | none => if onGraticule grid row col then 2 else 1

/-- The palette index of pixel `x` of a fetched line (R153). -/
def pixelIndex (front : PlaneSet) (f : Fetch) (x : Nat) : Nat :=
  let overlay := fetchedByte f (overlayBase + f.line * overlayRowBytes + x)
  if overlay ≠ 0 then overlay
  else if f.origin.1 ≤ x ∧ x ≤ f.origin.1 + 999 ∧ inAreaRows f.origin f.line = true then
    let col := x - f.origin.1
    let row := f.line - f.origin.2
    areaIndex f.grid (f.channels.map fun n => (n, fetchedByte f (planeBase front n + row * 1000 + col))) row col
  else 1

/-- The 1280 pixels of a fetched line (R153). -/
def composeLine (c : ScanOut) (f : Fetch) : List Colour :=
  (List.range linePixels).map fun x => c.palette.getD (pixelIndex c.front f x) 0

/-! ## Lines (R148, R149, R160) -/

/-- The background line: 1280 pixels of index 1 in the palette as it stands (R160). -/
def backgroundLine (palette : List Colour) : List Colour := List.replicate linePixels (palette.getD 1 0)

/-- The pixels the line buffer holds: those of the last line composed, or the background until there is one
(R160). -/
def bufferLine (c : ScanOut) : List Colour := c.lineBuffer.getD (backgroundLine c.palette)

/-- A late line: counted, its fetch abandoned and its reads removed from the queue; the line buffer keeps its
contents (R110, R160). -/
def lateLine (s : State) : State :=
  { s with
    scan := { s.scan with lateLines := satSucc top32 s.scan.lateLines, fetch := none }
    mem := { s.mem with scanQ := s.mem.scanQ.filter fun q => q.write.isSome } }

/-- The line start of an active line judges it: composed into the line buffer, or late. With no fetch, which a
soft reset discarded, the line buffer stays and nothing is counted (R112, R153, R160). -/
def judgeLine (s : State) : State :=
  match s.scan.fetch with
  | none => s
  | some f =>
    if fetchFinished f then
      setScan { s.scan with lineBuffer := some (composeLine s.scan f), fetch := none } s
    else lateLine s

/-- What the line buffer holds is sent (R153, R160). -/
def sendLine (s : State) : State := setScan { s.scan with sent := bufferLine s.scan } s

/-- In a blanking line nothing is sent (R148). -/
def sendNothing (s : State) : State := setScan { s.scan with sent := [] } s

/-- The exchange of the sets (R150). -/
def exchange (s : State) : State :=
  if s.ras.state = .ready then setScan { s.scan with front := otherSet s.scan.front } s else s

/-- The frame start (R149). -/
def frameStart (s : State) : State :=
  let s := setScan { s.scan with
    origin := s.scan.pendingOrigin.getD s.scan.origin, pendingOrigin := none } s
  let s := exchange s
  rasterFrameStart (setScan { s.scan with frame := s.scan.frame + 1 } s)

/-- What the line start of line period `n` of a frame does (R148). -/
def linePeriod (n : Nat) (s : State) : State :=
  if n = 0 then frameStart (sendNothing s)
  else if n < blankingPeriods - 1 then sendNothing s
  else if n = blankingPeriods - 1 then beginFetch 0 (sendNothing s)
  else
    let s := sendLine (judgeLine s)
    if n + 1 - blankingPeriods < activeLines then beginFetch (n + 1 - blankingPeriods) s else s

/-- The start of the next line period (R148). -/
def nextLine (s : State) : State :=
  let s' := linePeriod s.scan.line s
  setScan { s'.scan with line := (s.scan.line + 1) % framePeriods } s'

/-! ## Overlay writes (R156) -/

/-- The 64-byte units of the plane that one row of a job's rectangle touches. -/
def jobUnits (j : OverlayJob) : Nat := if j.w = 0 then 0 else (j.x + j.w - 1) / 64 - j.x / 64 + 1

/-- The bursts of a job. -/
def jobBursts (j : OverlayJob) : Nat := jobUnits j * j.h

/-- The index a job writes to the pixel `i` columns and `k` rows into its rectangle (R157, R158). -/
def jobIndex (src : OverlaySource) (i k : Nat) : Byte :=
  match src with
  | .fill index => index
  | .pixels stride data => data.getD (k * stride + i) 0

/-- The write of a job's burst `b`: row by row, left to right, with a byte mask where the rectangle covers the
unit only partly (R156). -/
def jobWrite (j : OverlayJob) (b : Nat) : MemReq :=
  let k := b / jobUnits j
  let first := (j.x / 64 + b % jobUnits j) * 64
  { addr := overlayBase + (j.y + k) * overlayRowBytes + first
    write := some ((List.range 64).map fun i =>
      let x := first + i
      if j.x ≤ x ∧ x < j.x + j.w then some (jobIndex j.source (x - j.x) k) else none) }

/-- A job is done: its Done reply with the number of pixels written; the power-on clear ends (R156). -/
def jobDone (j : OverlayJob) (s : State) : State :=
  match j.reply with
  | some (tag, size) => replyDone tag (leBytes size (j.w * j.h)) s
  | none => setScan { s.scan with overlayClearing := false } s

/-- Jobs at the head of the work list whose last write has been granted are done, oldest first; a rectangle wholly
off the screen is done as its turn comes (R156, R157). -/
def settleOverlay : List OverlayJob → State → State
  | [], s => setScan { s.scan with overlayWork := [] } s
  | j :: js, s =>
    if j.granted < jobBursts j then setScan { s.scan with overlayWork := j :: js } s
    else settleOverlay js (jobDone j s)

/-- The head of the work list counts one more placed or granted burst. -/
def countHead (f : OverlayJob → OverlayJob) (s : State) : State :=
  match s.scan.overlayWork with
  | j :: js => setScan { s.scan with overlayWork := f j :: js } s
  | [] => s

/-! ## The Scan-out queue (R98, R152) -/

/-- The places of the Scan-out queue (R98). -/
def scanPlaces : Nat := 16

/-- The next request for the Scan-out queue, and the state once it is placed: a read of the fetch in flight, or
else a write of the overlay request being written (R152). -/
def scanNext (s : State) : Option (MemReq × State) :=
  let write : Option (MemReq × State) :=
    match s.scan.overlayWork with
    | j :: _ =>
      if j.placed < jobBursts j then
        some (jobWrite j j.placed, countHead (fun j => { j with placed := j.placed + 1 }) s)
      else none
    | [] => none
  match s.scan.fetch with
  | some f =>
    match f.reads with
    | a :: rest =>
      some ({ addr := a, write := none },
        setScan { s.scan with
          fetch := some { f with reads := rest, outstanding := f.outstanding + 1 } } s)
    | [] => write
  | none => write

/-- Requests placed while the Scan-out queue has a free place (R98). -/
def fillScan : Nat → State → State
  | 0, s => s
  | n + 1, s =>
    if s.mem.scanQ.length < scanPlaces then
      match scanNext s with
      | some (q, s) => fillScan n { s with mem := { s.mem with scanQ := s.mem.scanQ ++ [q] } }
      | none => s
    else s

/-- A Scan-out request has been granted (R99). A write in the queue is of the job at the head of the work list, and
a read of the fetch in flight. -/
def scanGranted (q : MemReq) (data : List Byte) (s : State) : State :=
  match q.write, s.scan.fetch with
  | some _, _ =>
    let s := countHead (fun j => { j with granted := j.granted + 1 }) s
    settleOverlay s.scan.overlayWork s
  | none, some f =>
    setScan { s.scan with
      fetch := some { f with outstanding := f.outstanding - 1, data := f.data ++ [(q.addr, data)] } } s
  | none, none => s

/-! ## Requests -/

/-- A job joins the overlay work list (R156). -/
def addJob (j : OverlayJob) (s : State) : State := settleOverlay (s.scan.overlayWork ++ [j]) s

/-- How much of a length from `start` lies inside `limit` (R157). -/
def clipLength (start len limit : Nat) : Nat := min len (limit - start)

/-- The clipped job of a request for the rectangle its payload begins with (R157, R158). -/
def overlayJob (r : Request) (size : Nat) (source : OverlaySource) : OverlayJob :=
  let x := fieldAt r.payload 0 2
  let y := fieldAt r.payload 2 2
  { reply := some (r.tag, size), x := x, y := y
    w := clipLength x (fieldAt r.payload 4 2) 1280, h := clipLength y (fieldAt r.payload 6 2) 800
    source := source, placed := 0, granted := 0 }

/-- The rectangle a payload begins with has a width or a height of 0 (R157, R158). -/
def emptyRectangle (p : List Byte) : Bool := fieldAt p 4 2 == 0 || fieldAt p 6 2 == 0

/-- WriteOverlay (R157). An empty rectangle is refused at dispatch, whatever other overlay work waits (log 25). -/
def serveWriteOverlay (r : Request) (s : State) : State :=
  if emptyRectangle r.payload then replyRefused r.tag r.kind .badValue .none s
  else addJob (overlayJob r 2 (.pixels (fieldAt r.payload 4 2) (r.payload.drop 8))) s

/-- FillOverlay (R158). An empty rectangle is refused at dispatch, whatever other overlay work waits (log 25). -/
def serveFillOverlay (r : Request) (s : State) : State :=
  if emptyRectangle r.payload then replyRefused r.tag r.kind .badValue .none s
  else addJob (overlayJob r 4 (.fill (r.payload.getD 8 0))) s

/-- WritePalette (R155). -/
def serveWritePalette (r : Request) (s : State) : State :=
  let first := byteAt r.payload 0
  let colours := paletteColours r.payload
  if 256 < first + fieldAt r.payload 1 2 then replyRefused r.tag r.kind .badValue .none s
  else
    replyDone r.tag []
      (setScan { s.scan with
        palette := s.scan.palette.take first ++ colours ++ s.scan.palette.drop (first + colours.length) } s)

/-- SetWaveArea (R159). -/
def serveSetWaveArea (r : Request) (s : State) : State :=
  let x := fieldAt r.payload 0 2
  let y := fieldAt r.payload 2 2
  let x0 := min x 280
  let y0 := min y 400
  replyDone r.tag (leBytes 2 x0 ++ leBytes 2 y0 ++ [boolByte (x0 != x || y0 != y)])
    (setScan { s.scan with pendingOrigin := some (x0, y0) } s)

end Sys2Proof.Machine
end

