-- ==== Sys2Proof/Machine/Scheduler.lean ====
section
/-! DEFINITION. The memory scheduler: banks, the activation window, the choice of the grant, refresh (05). What a grant means
to the class it goes to is in Machine/MemorySlot.lean. -/

namespace Sys2Proof.Machine

/-- The four classes, in priority order (R104). -/
inductive MemClass where
  | capture | scanOut | raster | readout
  deriving DecidableEq, Repr

/-- The classes in priority order (R104). -/
def classesByPriority : List MemClass := [.capture, .scanOut, .raster, .readout]

/-- A class's place in the priority order, which is its place in the pass-over counts. -/
def classRank : MemClass → Nat
  | .capture => 0 | .scanOut => 1 | .raster => 2 | .readout => 3

/-- The bank of an address (R96). -/
def bankOf (addr : Nat) : Nat := addr / 8192 % 8

/-- The row of an address (R96). -/
def rowOf (addr : Nat) : Nat := addr / 65536

/-- The head request of a class's queue (R98). -/
def classHead (s : State) : MemClass → Option MemReq
  | .capture => s.cap.gather.head?.map fun b => { addr := b.addr, write := some b.lanes }
  | .scanOut => s.mem.scanQ.head?
  | .raster => s.mem.rasterQ.head?
  | .readout => s.mem.readQ.head?

/-- The row opens the window records (R103). -/
def opensInWindow (m : Sched) : Nat := (m.window.filter id).length

/-- The window has room for one more open (R103). -/
def windowRoom (m : Sched) : Bool := opensInWindow m < 4

/-- The state of the bank an address lies in. -/
def bankState (m : Sched) (addr : Nat) : Bank := m.banks.getD (bankOf addr) .closed

/-- The request finds its row open (R101, R102). -/
def rowHit (m : Sched) (addr : Nat) : Bool := bankState m addr == .openRow (rowOf addr)

/-- A request is eligible (R102). -/
def requestEligible (m : Sched) (r : MemReq) : Bool :=
  rowHit m r.addr || (bankState m r.addr != .refreshing && windowRoom m)

/-- A class's head is eligible (R102). -/
def classEligible (s : State) (c : MemClass) : Bool :=
  match classHead s c with
  | some r => requestEligible s.mem r
  | none => false

/-- The gather queue's high-water mark (R104). -/
def highWater : Nat := 48

/-- A class's pass-over count (R105). -/
def passCount (m : Sched) (c : MemClass) : Nat := m.pass.getD (classRank c) 0

/-- The class that wins the slot, or none (R104). -/
def chooseClass (s : State) : Option MemClass :=
  let eligible := classesByPriority.filter (classEligible s)
  let due := eligible.filter fun c => passCount s.mem c == 16
  if s.cap.gather.length < highWater ∧ due ≠ [] then due.head? else eligible.head?

/-- The pass-over counts after a grant (R105). -/
def passAfter (s : State) (granted : MemClass) : List Nat :=
  classesByPriority.map fun c =>
    if c = granted then 0 else if classEligible s c then min 16 (passCount s.mem c + 1) else 0

/-- The window one slot on, with whether this slot opened a row (R103). -/
def ageWindow (opened : Bool) (m : Sched) : Sched := { m with window := opened :: m.window.take 22 }

/-- The granted class's row policy: whether the bank stays open after the burst (R101). `next` is the request
then at the head of the Raster queue. -/
def staysOpen (c : MemClass) (addr : Nat) (next : Option MemReq) : Bool :=
  match c with
  | .capture | .scanOut => true
  | .raster =>
    match next with
    | some r => bankOf r.addr == bankOf addr && rowOf r.addr == rowOf addr
    | none => false
  | .readout => false

/-- The scheduler after a grant: the bank, the window and the counts (R101, R103, R105). -/
def grantSched (c : MemClass) (addr : Nat) (next : Option MemReq) (pass : List Nat) (m : Sched) : Sched :=
  let opened := !rowHit m addr
  let after := if staysOpen c addr next then Bank.openRow (rowOf addr) else .closed
  ageWindow opened { m with banks := m.banks.set (bankOf addr) after, pass := pass }

/-- The granted request leaves its queue (R98). -/
def popClass (c : MemClass) (s : State) : State :=
  match c with
  | .capture => { s with cap := { s.cap with gather := s.cap.gather.tail } }
  | .scanOut => { s with mem := { s.mem with scanQ := s.mem.scanQ.tail } }
  | .raster => { s with mem := { s.mem with rasterQ := s.mem.rasterQ.tail } }
  | .readout => { s with mem := { s.mem with readQ := s.mem.readQ.tail } }

/-! ## Refresh (R106 to R108) -/

/-- An owed refresh starts in this slot (R107). -/
def refreshStarts (s : State) : Bool :=
  s.mem.refreshing.isNone && 1 ≤ s.mem.owed && !(highWater ≤ s.cap.gather.length && s.mem.owed < 8)

/-- Ticks of a refresh: 350 ns (R108). -/
def refreshTicks : Nat := 3500

/-- The start of a refresh: every bank Refreshing (R107). The slot carries nothing and ages the window. -/
def startRefresh (s : State) : State :=
  { s with mem := ageWindow false { s.mem with
      banks := s.mem.banks.map fun _ => Bank.refreshing, refreshing := timerFor s refreshTicks } }

/-- The end of a refresh (R108); one that a soft reset overtook lowers no owed count (R112). -/
def endRefresh (s : State) : State :=
  if timerDue s s.mem.refreshing then
    { s with mem := { s.mem with
        banks := s.mem.banks.map fun _ => Bank.closed, refreshing := none, afterReset := false
        owed := if s.mem.afterReset then s.mem.owed else s.mem.owed - 1 } }
  else s

/-- The refresh interval timer expires and restarts (R106). -/
def refreshInterval (s : State) : State :=
  if tickReached s s.mem.intervalDue then
    { s with mem := { s.mem with
        owed := min 8 (s.mem.owed + 1)
        intervalDue := s.mem.intervalDue + BitVec.ofNat 64 refreshIntervalTicks } }
  else s

end Sys2Proof.Machine
end

