-- ==== Sys2Proof/Machine/MemorySlot.lean ====
section
/-! DEFINITION. A memory slot: refresh, grant or idle, what a grant gives its block, and the placing of requests into free places
(R98 to R108). -/

namespace Sys2Proof.Machine

/-- The three blocks that hold requests back place them while their queues have free places (R98). -/
def placeRequests (s : State) : State :=
  fillReadout readoutPlaces (fillRaster rasterPlaces (fillScan scanPlaces s))

/-- The DRAM after a granted request: a write's valid lanes are in it (R96, R99). -/
def dramAfter (q : MemReq) (m : Memory) : Memory :=
  match q.write with
  | some lanes => memWriteLanes dramDefault m q.addr lanes
  | none => m

/-- What a grant means to its class: completion of a segment, fetched data, raster work, a read's bytes (R79,
R99). -/
def granted (c : MemClass) (q : MemReq) (data : List Byte) (s : State) : State :=
  match c with
  | .capture => checkDrained s
  | .scanOut => scanGranted q data s
  | .raster => rasterGranted q data s
  | .readout => readGranted data s

/-- The head request of a class granted (R99, R101, R105). The row policy looks at the Raster queue as the grant
leaves it (log 17). -/
def grant (c : MemClass) (q : MemReq) (s : State) : State :=
  let pass := passAfter s c
  let data := burstAt s q.addr
  let s := popClass c s
  granted c q data { s with
    mem := grantSched c q.addr s.mem.rasterQ.head? pass s.mem
    dram := dramAfter q s.dram }

/-- A slot that carries nothing ages the window (R100). -/
def idleSlot (s : State) : State := { s with mem := ageWindow false s.mem }

/-- The request lies wholly inside the DRAM (R96). -/
def inDram (q : MemReq) : Bool := q.addr + 64 ≤ dramBytes

/-- A slot that comes to the grant choice (R100, step 3). -/
def grantSlot (s : State) : Host.Outcome State Fault Refusal :=
  match chooseClass s with
  | none => .next (idleSlot s)
  | some c =>
    match classHead s c with
    | none => .next (idleSlot s)
    | some q => if inDram q then .next (grant c q s) else .fault (.noSuchAddress q.addr)

/-- The requests that find a place in the event of a slot, unless it faulted. R98 lets a request placed in the same event as a
slot be taken before or after it: they are taken after it, after its grant too (log 27). -/
def thenPlace : Host.Outcome State Fault Refusal → Host.Outcome State Fault Refusal
  | .next s => .next (placeRequests s)
  | .fault f => .fault f
  | .refused r => .refused r

/-- One memory slot (R100). -/
def memorySlot (s : State) : Host.Outcome State Fault Refusal :=
  thenPlace
    (if s.mem.refreshing.isSome then .next (idleSlot s)
     else if refreshStarts s then .next (startRefresh s)
     else grantSlot s)

end Sys2Proof.Machine
end

