-- ==== Sys2Proof/Machine/RunControl.lean ====
section
/-! DEFINITION. The requests and key events that the capture controller, the trigger engine and the rasterizer take: Run, Stop,
Single, SetWatermark, SetInput, ForceTrigger, ClearPersist (R29, R63, R72, R83 to R85, R93, R94, R135). -/

namespace Sys2Proof.Machine

/-! ## Requests -/

/-- Run (R83). -/
def serveRun (r : Request) (s : State) : State :=
  replyDone r.tag [BitVec.ofNat 8 (captureRun s).2] (captureRun s).1

/-- Stop (R84). -/
def serveStop (r : Request) (s : State) : State :=
  replyDone r.tag [BitVec.ofNat 8 (runStateCode s.cap.runState)] (captureStop s)

/-- Single (R85). -/
def serveSingle (r : Request) (s : State) : State :=
  let s := captureSingle s
  replyDone r.tag (leBytes 4 s.cap.capNo.toNat ++ leBytes 2 (sequenceTarget s)) s

/-- SetWatermark (R93). -/
def serveSetWatermark (r : Request) (s : State) : State :=
  let k := fieldAt r.payload 0 2
  if 4096 < k then replyRefused r.tag r.kind .badValue .none s
  else replyDone r.tag (leBytes 2 s.cap.watermark) (captureSetWatermark k s)

/-- The capture input a wire value stands for (R72). -/
def inputOf (v : Nat) : Option InputSel :=
  match v with | 0 => some .adc | 1 => some .pattern | _ => none

/-- SetInput (R72). -/
def serveSetInput (r : Request) (s : State) : State :=
  match inputOf (byteAt r.payload 0) with
  | some i => replyDone r.tag [BitVec.ofNat 8 (inputCode s.cap.input)] (captureSetInput i s)
  | none => replyRefused r.tag r.kind .badValue .none s

/-- A capture request by its kind. -/
def serveCaptureRequest (r : Request) (s : State) : State :=
  match r.kind.toNat with
  | 0x19 => serveRun r s
  | 0x1A => serveStop r s
  | 0x1B => serveSingle r s
  | 0x1C => serveSetWatermark r s
  | 0x1D => serveSetInput r s
  | _ => s

/-- A request that reaches the capture controller: before the power-on Run it waits (R94). -/
def reachCapture (serve : Request → State → State) (r : Request) (s : State) : State :=
  if s.cap.runTaken then serve r s
  else { s with cap := { s.cap with waiting := s.cap.waiting ++ [r] } }

/-! ## Force (R63) -/

/-- The engine takes a force: the state after it, and the result of its Done reply (R63). -/
def takeForce (s : State) : State × Nat :=
  match s.trig.arm with
  | .armed => (forceAccept s, 0)
  | .preFill => ({ s with trig := { s.trig with pendingForce := true } }, 1)
  | .idle => (s, 2)

/-- ForceTrigger (R63). -/
def serveForceTrigger (r : Request) (s : State) : State :=
  replyDone r.tag [BitVec.ofNat 8 (takeForce s).2] (takeForce s).1

/-- ClearPersist (R135). -/
def serveClearPersist (r : Request) (s : State) : State := replyDone r.tag [] (requestClear s)

/-! ## Key events (R29) -/

/-- The run/stop toggle (R29). -/
def toggleRun (s : State) : State :=
  if s.cap.runState = .stopped then (captureRun s).1 else captureStop s

/-- The oldest capture event of the panel taken when it is of a kind (R29). -/
def takeCaptureKey (k : CaptureKey) (f : State → State) (s : State) : State :=
  match s.panel.toCapture with
  | [] => s
  | e :: rest => if e = k then f { s with panel := { s.panel with toCapture := rest } } else s

/-- A force of the panel taken (R29, R63). -/
def takeKeyForce (s : State) : State :=
  if s.panel.toTrigger = 0 then s
  else (takeForce { s with panel := { s.panel with toTrigger := s.panel.toTrigger - 1 } }).1

/-- A clear of the panel taken (R29, R135). -/
def takeKeyClear (s : State) : State :=
  if s.panel.toRaster = 0 then s
  else requestClear { s with panel := { s.panel with toRaster := s.panel.toRaster - 1 } }

end Sys2Proof.Machine
end

