-- ==== Sys2Proof/Machine/Setup.lean ====
section
/-! DEFINITION. The setup controller: change sets, their checks, clamps and effects, the front-end port, and the requests on the
live setup (R1 to R23, R137 to R140). -/

namespace Sys2Proof.Machine

/-! ## Validation (R5, R137) -/

/-- Why a change set is refused. -/
structure SetFailure where
  reason : Reason
  detail : Detail
  deriving DecidableEq, Repr

/-- An absolute value an Enum parameter does not have (R5). -/
def badEnumValue (id : Nat) : PairValue → Bool
  | .absolute v =>
    match paramInfo id with
    | some p => p.kind == .enum && !(decide (p.lo ≤ v) && decide (v ≤ p.hi))
    | none => false
  | .relative _ | .flip => false

/-- The first failing pair, in the order the pairs are given (R5). -/
def firstBadPair (pos : Nat) (seen : List Nat) : List (Nat × PairValue) → Option SetFailure
  | [] => none
  | (id, v) :: rest =>
    if !knownParam id then some ⟨.unknownParam, .pair pos id⟩
    else if badEnumValue id v || seen.contains id then some ⟨.badValue, .pair pos id⟩
    else firstBadPair (pos + 1) (id :: seen) rest

/-- A zone as written fails the zone check (R137). -/
def zoneFails (z : Nat × Nat) : Bool :=
  !(z.1 == 0xFFFF && z.2 == 0xFFFF || z.1 ≤ z.2 && z.2 ≤ 399)

/-- The first failing zone, in ascending zone number (R137). -/
def firstBadZone (num : Nat) : List (Nat × Nat) → Option SetFailure
  | [] => none
  | z :: rest => if zoneFails z then some ⟨.badValue, .zone num⟩ else firstBadZone (num + 1) rest

/-- The zones of a section that was absent: 200 unbounded zones (R138). -/
def blankSection : List Zone := List.replicate 200 .unbounded

/-- The bounds of the whole section a mask edit makes from the live one (R2, R138); none for removal or no
edit. -/
def editedBounds (live : Option (List Zone)) : MaskEdit → Option (List (Nat × Nat))
  | .keep | .remove => none
  | .replace zones => some zones
  | .writeRun first zones =>
    let base := (live.getD blankSection).map zoneBounds
    some (base.take first ++ zones ++ base.drop (first + zones.length))

/-- The mask section a set leaves (R2, R10). -/
def editedMask (live : Option (List Zone)) (e : MaskEdit) : Option (List Zone) :=
  match e with
  | .keep => live
  | .remove => none
  | .replace _ | .writeRun _ _ => (editedBounds live e).map fun b => b.map zoneOfBounds

/-- The failure of a whole set: the first failing pair, then the first failing zone (R5, R137). -/
def setFailure (live : Option (List Zone)) (cs : ChangeSet) : Option SetFailure :=
  match firstBadPair 0 [] cs.pairs with
  | some f => some f
  | none => firstBadZone 0 ((editedBounds live cs.mask).getD [])

/-! ## Resolving, clamping and the capacity check (R4, R6 to R9) -/

/-- What became of one pair: its value, and which clamps met it. -/
structure PairOutcome where
  id : Nat
  value : Int
  byRange : Bool
  byWindow : Bool
  byCapacity : Bool
  deriving DecidableEq, Repr

/-- A pair's value, resolved against the live values (R4). -/
def resolveValue (vals : List Int) (id : Nat) : PairValue → Int
  | .absolute v => v
  | .relative d => getParam vals id + d
  | .flip => if getParam vals id = 0 then 1 else 0

/-- A pair resolved and brought inside its limits (R4, R6). -/
def clampPair (vals : List Int) (p : Nat × PairValue) : PairOutcome :=
  let raw := resolveValue vals p.1 p.2
  let v := clampParam p.1 raw
  { id := p.1, value := v, byRange := v != raw, byWindow := false, byCapacity := false }

/-- The values with the pairs' outcomes put in. -/
def putOutcomes (vals : List Int) (outs : List PairOutcome) : List Int :=
  outs.foldl (fun vs o => setParam vs o.id o.value) vals

/-- The greatest DISP.HPOS: L_disp − W (R7). -/
def hposLimit (lDisp zoomIdx : Nat) : Int := (lDisp : Int) - (windowWidth lDisp zoomIdx : Int)

/-- The second clamp of a DISP.HPOS pair (R7). -/
def clampWindow (limit : Int) (o : PairOutcome) : PairOutcome :=
  if o.id = idHpos ∧ limit < o.value then { o with value := limit, byWindow := true } else o

/-- The parameters whose pairs call for the capacity check (R8). -/
def capacityIds : List Nat :=
  [idEnable 1, idEnable 2, idEnable 3, idEnable 4, idTbScale, idAcqLength, idAcqMode, idAcqSegments]

/-- The set calls for the capacity check and fails it (R8). -/
def capacityFails (vals : List Int) (pairs : List PairOutcome) : Bool :=
  pairs.any (fun o => capacityIds.contains o.id) && decide (captureRegionBytes < capacityRequirement vals)

/-- The lowered ACQ.SEGMENTS (R9). -/
def loweredSegments (vals : List Int) : Int := (captureRegionBytes / valuesPerSegment vals : Nat)

/-- What a set that passes validation comes to. -/
structure SetOutcome where
  values : List Int
  mask : Option (List Zone)
  pairs : List PairOutcome
  lowered : Bool
  deriving DecidableEq, Repr

/-- Clamps and capacity check of a validated set, against the live values and the displayed capture (R6 to R9). -/
def resolveSet (vals : List Int) (live : Option (List Zone)) (displayed : Option Nat) (cs : ChangeSet) :
    SetOutcome :=
  let outs := cs.pairs.map (clampPair vals)
  let vals1 := putOutcomes vals outs
  let lDisp := displayed.getD (valuesLength vals1)
  let outs := outs.map (clampWindow (hposLimit lDisp (getParam vals1 idZoom).toNat))
  let vals2 := putOutcomes vals outs
  let lowered := capacityFails vals2 outs
  let segs := loweredSegments vals2
  { values := if lowered then setParam vals2 idAcqSegments segs else vals2
    mask := editedMask live cs.mask
    pairs := if lowered then
        outs.map fun o => if o.id = idAcqSegments then { o with value := segs, byCapacity := true } else o
      else outs
    lowered := lowered }

/-- The clamp code of a pair in a SetParams reply: the later clamp's code (R21). -/
def clampCode (o : PairOutcome) : Nat :=
  if o.byCapacity then 3 else if o.byWindow then 2 else if o.byRange then 1 else 0

/-- The count of clamped values of a recall (R23). -/
def clampCount (o : SetOutcome) : Nat :=
  (o.pairs.filter fun p => p.byRange || p.byWindow).length + o.lowered.toNat

/-! ## Effects (R10 to R19) -/

/-- The ids whose value differs (R10), ascending. -/
def changedIds (old new : List Int) : List Nat :=
  (catalogue.map (·.id)).filter fun id => getParam old id != getParam new id

/-- Some changed id has the class. -/
def classChanged (ids : List Nat) (c : EffectClass) : Bool :=
  ids.any fun id => (paramInfo id).any fun p => p.cls == c

/-- The front-end word of a channel (R12, R13). -/
def frontWord (vals : List Int) (n : Nat) : FrontWord :=
  BitVec.ofNat 16 ((n - 1) + 4 * (getParam vals (idScale n)).toNat + 64 * (getParam vals (idCoupling n)).toNat
    + 256 * (getParam vals (idBwLimit n)).toNat)

/-- The channels with a changed F-class value, ascending (R13). -/
def frontChannels (ids : List Nat) : List Nat :=
  [1, 2, 3, 4].filter fun n => ids.contains (idScale n) || ids.contains (idCoupling n) || ids.contains (idBwLimit n)

/-- Front-end words emitted for some channels (R13). -/
def emitWords (channels : List Nat) (s : State) : State :=
  { s with setup := { s.setup with words := s.setup.words ++ channels.map (frontWord s.setup.values) } }

/-- The settle time: 20 ms (R14). -/
def settleTicks : Nat := 20 * ticksPerMs

/-- The settle timer started with 20 ms (R14). -/
def startSettle (s : State) : State := { s with setup := { s.setup with settle := timerFor s settleTicks } }

/-- The front-end words and the settle restart of a set (R11, R13, R14). -/
def frontEffect (ids : List Nat) (s : State) : State :=
  if classChanged ids .F then startSettle (emitWords (frontChannels ids) s) else s

/-- The effects of an applied set, from the ids that changed, in the order of R11's table, then ParamChanged
(R11, R13 to R19). A changed mask section has no effect beyond the section itself: the mask checker reads it
from the live setup when it tests (R18). -/
def setEffects (ids : List Nat) (s : State) : State :=
  let s := frontEffect ids s
  let s := if classChanged ids .F || classChanged ids .C then captureChange s else s
  let s := if classChanged ids .T then triggerChange s else s
  let s := if classChanged ids .D then requestClear s else s
  if ids.isEmpty then s else offer (.paramChanged ids) s

/-- The values and mask of an outcome put into the live setup. -/
def putSetup (o : SetOutcome) (s : State) : State :=
  { s with setup := { s.setup with values := o.values, mask := o.mask } }

/-- What a change set comes to in a state: refused, or an outcome (R3). -/
def judgeSet (cs : ChangeSet) (s : State) : Except SetFailure SetOutcome :=
  match setFailure s.setup.mask cs with
  | some f => .error f
  | none => .ok (resolveSet s.setup.values s.setup.mask s.ras.displayed cs)

/-- An outcome applied with its effects, as one event (R10, R11). -/
def applySet (o : SetOutcome) (s : State) : State :=
  setEffects (changedIds s.setup.values o.values) (putSetup o s)

/-! ## Requests on the live setup -/

/-- The Done payload of SetParams (R21). -/
def setParamsPayload (o : SetOutcome) : List Byte :=
  BitVec.ofNat 8 o.pairs.length ::
    o.pairs.flatMap (fun p => BitVec.ofNat 8 p.id :: leInt 4 p.value ++ [BitVec.ofNat 8 (clampCode p)]) ++
    boolByte o.lowered :: leInt 4 (getParam o.values idAcqSegments)

/-- SetParams taken by the setup controller (R20, R21). -/
def serveSetParams (r : Request) (s : State) : State :=
  match judgeSet { pairs := setParamsPairs r.payload, mask := .keep } s with
  | .error f => replyRefused r.tag r.kind f.reason f.detail s
  | .ok o => replyDone r.tag (setParamsPayload o) (applySet o s)

/-- The first id asked for that is not in the catalogue, with its position (R22). -/
def firstUnknown (pos : Nat) : List Nat → Option (Nat × Nat)
  | [] => none
  | id :: rest => if knownParam id then firstUnknown (pos + 1) rest else some (pos, id)

/-- GetParams (R22). -/
def serveGetParams (r : Request) (s : State) : State :=
  let ids := getParamsIds r.payload
  match firstUnknown 0 ids with
  | some (pos, id) => replyRefused r.tag r.kind .unknownParam (.pair pos id) s
  | none =>
    replyDone r.tag
      (ids.flatMap (fun id => BitVec.ofNat 8 id :: leInt 4 (s.param id)) ++ [boolByte s.setup.mask.isSome]) s

/-- A zone carries bounds. -/
def isBounded : Zone → Bool
  | .bounded _ _ => true
  | .unbounded => false

/-- WriteMask (R138). The range check of the run is the mask checker's. -/
def serveWriteMask (r : Request) (s : State) : State :=
  let first := byteAt r.payload 0
  let count := byteAt r.payload 1
  if first > 199 ∨ first + count > 200 then replyRefused r.tag r.kind .badValue (.zone first) s
  else
    match judgeSet { pairs := [], mask := .writeRun first (readBounds count (r.payload.drop 2)) } s with
    | .error f => replyRefused r.tag r.kind f.reason f.detail s
    | .ok o =>
      replyDone r.tag
        [boolByte s.setup.mask.isSome, BitVec.ofNat 8 ((o.mask.getD []).filter isBounded).length]
        (applySet o s)

/-- ClearMask (R139). -/
def serveClearMask (r : Request) (s : State) : State :=
  match judgeSet { pairs := [], mask := .remove } s with
  | .error f => replyRefused r.tag r.kind f.reason f.detail s
  | .ok o => replyDone r.tag [boolByte s.setup.mask.isSome] (applySet o s)

/-- ReadMask (R140). -/
def serveReadMask (r : Request) (s : State) : State :=
  replyDone r.tag (match s.setup.mask with | some zones => 1 :: maskBytes zones | none => [0]) s

/-- A request on the live setup, by its kind. -/
def serveSetupRequest (r : Request) (s : State) : State :=
  match r.kind.toNat with
  | 0x08 => serveSetParams r s
  | 0x09 => serveGetParams r s
  | 0x20 => serveWriteMask r s
  | 0x21 => serveClearMask r s
  | 0x22 => serveReadMask r s
  | _ => s

/-- A request that reaches the setup controller: before the power-on load is applied it waits (R24). -/
def reachSetup (serve : Request → State → State) (r : Request) (s : State) : State :=
  if s.setup.loadApplied then serve r s
  else { s with setup := { s.setup with waiting := s.setup.waiting ++ [r] } }

/-- WriteMask reaches the mask checker, which checks its range at once and hands the rest on (R138). -/
def reachWriteMask (r : Request) (s : State) : State :=
  let first := byteAt r.payload 0
  if first > 199 ∨ first + byteAt r.payload 1 > 200 then
    replyRefused r.tag r.kind .badValue (.zone first) s
  else reachSetup serveWriteMask r s

/-- The oldest change set the panel has made is taken, silently (R30, R34). -/
def takePanelSet (s : State) : State :=
  match s.panel.toSetup with
  | [] => s
  | cs :: rest =>
    if s.setup.loadApplied then
      let s : State := { s with panel := { s.panel with toSetup := rest } }
      match judgeSet cs s with
      | .error _ => s
      | .ok o => applySet o s
    else s

end Sys2Proof.Machine
end

