-- ==== Sys2Proof/Machine/Panel.lean ====
section
/-! DEFINITION. The panel controller: keys, knobs, lamps, panel modes and the panel requests (02). -/

namespace Sys2Proof.Machine

/-! ## Keys (R26 to R30, R36 to R38) -/

/-- The debounce time: 8 ms (R26). -/
def debounceTicks : Nat := 8 * ticksPerMs

/-- One key's record after a scan: an input change restarts its debounce timer (R26). -/
def scanKey (timer : Timer) (down : Bool) (k : Key) : Key :=
  if k.lastDown = down then k else { k with lastDown := down, debounce := timer }

/-- Every key's record after a scan; bit `i` of the scan is key `i` (R26). -/
def scanKeys (timer : Timer) (down : BitVec 64) (keys : List Key) : List Key :=
  (keys.zip (List.range keys.length)).map fun p => scanKey timer (down.getLsbD p.2) p.1

/-- The panel replaced. -/
def setPanel (p : Panel) (s : State) : State := { s with panel := p }

/-- A knob's acceleration reset (R33). -/
def resetAccel (k : Knob) : Knob := { k with run := 0, mult := 1, count := 0, quick := none }

/-- All knobs' acceleration reset (R33). -/
def resetAllAccel (p : Panel) : Panel := { p with knobs := p.knobs.map resetAccel }

/-- A change set handed to the setup controller (R30, R34). -/
def handSet (id : Nat) (v : PairValue) (p : Panel) : Panel :=
  { p with toSetup := p.toSetup ++ [{ pairs := [(id, v)], mask := .keep }] }

/-- The home value KnobHome sets (R30). -/
def homeValue (id : Nat) : Int := match paramInfo id with | some i => i.home | none => 0

/-- The bound action of a key pressed in Local mode (R29, R30). -/
def runAction (a : KeyAction) (p : Panel) : Panel :=
  match a with
  | .runStop => { p with toCapture := p.toCapture ++ [.runStop] }
  | .single => { p with toCapture := p.toCapture ++ [.single] }
  | .forceTrigger => { p with toTrigger := p.toTrigger + 1 }
  | .defaultSetup => { p with toStore := p.toStore ++ [0] }
  | .recall slot => { p with toStore := p.toStore ++ [slot] }
  | .clearPersist => { p with toRaster := p.toRaster + 1 }
  | .channelToggle n => handSet (idEnable n) .flip p
  | .knobHome k =>
    match (p.knobs[k]?).bind (·.target) with
    | some id => handSet id (.absolute (homeValue id)) p
    | none => p
  | .none | .report | .toLocal => p

/-- PanelKey offered (R36). -/
def offerKey (key : Nat) (press : Bool) (s : State) : State := offer (.panelKey key press s.panel.mode) s

/-- The switch to Local by a Local key (R38). -/
def switchToLocal (s : State) : State :=
  offer (.panelMode .localMode) (setPanel { resetAllAccel s.panel with mode := .localMode } s)

/-- A press, by the mode and the key's binding (R28, R37, R38). -/
def keyPress (key : Nat) (a : KeyAction) (s : State) : State :=
  match s.panel.mode with
  | .localMode => if a = .report then offerKey key true s else setPanel (runAction a s.panel) s
  | .remote => if a = .toLocal then switchToLocal s else offerKey key true s
  | .lockout => offerKey key true s

/-- A release, by the mode and the key's binding (R28). -/
def keyRelease (key : Nat) (a : KeyAction) (s : State) : State :=
  match s.panel.mode with
  | .localMode => if a = .report then offerKey key false s else s
  | .remote | .lockout => offerKey key false s

/-- A key's debounce timer expires (R27). -/
def debounceKey (key : Nat) (s : State) : State :=
  match s.panel.keys[key]? with
  | none => s
  | some k =>
    if timerDue s k.debounce = false then s
    else
      let s := setPanel { s.panel with
        keys := s.panel.keys.set key { k with debounce := none, down := k.lastDown } } s
      if k.lastDown = k.down then s
      else if k.lastDown then keyPress key k.action s
      else keyRelease key k.action s

/-! ## Knobs (R31 to R35) -/

/-- The place of a line pair in the Gray sequence 00, 01, 11, 10 (02, Knobs). -/
def grayPlace (lines : BitVec 2) : Nat := [0, 1, 3, 2].getD lines.toNat 0

/-- The kinds of transition (R31). -/
inductive Transition where
  | none | forward | reverse | illegal
  deriving DecidableEq, Repr

/-- How a transition is classified (R31). -/
def classify (old new : BitVec 2) : Transition :=
  let step := (grayPlace new + 4 - grayPlace old) % 4
  if step = 0 then .none else if step = 1 then .forward else if step = 3 then .reverse else .illegal

/-- Transitions per detent of a resolution (02, Knobs). -/
def perDetent (resolution : Nat) : Int :=
  if resolution = 1 then 4 else if resolution = 2 then 2 else 1

/-- The knob's acceleration after a detent (R32 steps 1, 2, 3 and 5). -/
def accelerate (quick : Timer) (clockwise : Bool) (k : Knob) : Knob :=
  let goesOn := k.quick.isSome && k.clockwise == clockwise
  let run := if goesOn then min 255 (k.run + 1) else 1
  let mult := if goesOn then k.mult else 1
  { k with run := run, mult := if run > k.hold then min k.maxMult (mult + k.ramp) else mult
           clockwise := clockwise, quick := quick }

/-- A detent's direction as a signed unit. -/
def direction (clockwise : Bool) : Int := if clockwise then 1 else -1

/-- L_disp of the state: the L_eff of the displayed capture, or the one the live setup gives (R7, R34). -/
def displayedLength (s : State) : Nat := s.ras.displayed.getD (valuesLength s.setup.values)

/-- One knob unit of a parameter; for DISP.HPOS one column of the displayed window (R34). -/
def knobUnit (s : State) (id : Nat) : Int :=
  if id = idHpos then
    (max 1 (windowWidth (displayedLength s) (s.param idZoom).toNat / 1000) : Nat)
  else match paramInfo id with | some i => i.unit | none => 1

/-- The relative pair a detent makes (R34). -/
def detentDelta (s : State) (id : Nat) (clockwise : Bool) (mult : Nat) : Int :=
  match paramInfo id with
  | some i => if i.kind = .range then direction clockwise * mult * knobUnit s id else direction clockwise
  | none => 0

/-- A knob replaced. -/
def setKnob (i : Nat) (k : Knob) (s : State) : State := setPanel { s.panel with knobs := s.panel.knobs.set i k } s

/-- A detent taken: acceleration, then a change set in Local mode or a PanelKnob notice (R32, R34, R35). -/
def takeDetent (i : Nat) (clockwise : Bool) (k : Knob) (s : State) : State :=
  let k := accelerate (timerFor s (k.quickMs * ticksPerMs)) clockwise k
  let s := setKnob i k s
  match s.panel.mode, k.target with
  | .localMode, some id =>
    setPanel (handSet id (.relative (detentDelta s id clockwise k.mult)) s.panel) s
  | _, _ => offer (.panelKnob i (direction clockwise * k.mult)) s

/-- A legal transition counted, and the detent it completes (R31). -/
def countTransition (i : Nat) (d : Int) (k : Knob) (s : State) : State :=
  let count := k.count + d
  if count = perDetent k.resolution then takeDetent i true { k with count := 0 } s
  else if count = -(perDetent k.resolution) then takeDetent i false { k with count := 0 } s
  else setKnob i { k with count := count } s

/-- A change of a knob's line pair decoded (R31). -/
def decodeKnob (i : Nat) (lines : BitVec 2) (s : State) : State :=
  match s.panel.knobs[i]? with
  | none => s
  | some k =>
    let next := { k with lines := lines }
    match classify k.lines lines with
    | .none => s
    | .forward => countTransition i 1 next s
    | .reverse => countTransition i (-1) next s
    | .illegal => setKnob i { next with count := 0, faults := satSucc 65535 k.faults } s

/-- The line pair of a knob as the outside now drives it. -/
def drivePin (i : Nat) (lines : BitVec 2) (s : State) : State :=
  { s with pins := { s.pins with knobLines := s.pins.knobLines.set i lines } }

/-- A knob's quick timer expires: its acceleration is reset and the transition count kept (R33). -/
def quickExpiry (i : Nat) (s : State) : State :=
  match s.panel.knobs[i]? with
  | some k => if timerDue s k.quick then setKnob i { resetAccel k with count := k.count } s else s
  | none => s

/-! ## Panel requests (R42 to R48) -/

/-- The panel mode a wire value stands for (R42). -/
def panelModeOf (v : Nat) : Option PanelMode :=
  match v with | 0 => some .localMode | 1 => some .remote | 2 => some .lockout | _ => none

/-- A request refused with BAD_VALUE. -/
def refuseValue (r : Request) (s : State) : State := replyRefused r.tag r.kind .badValue .none s

/-- SetPanelMode (R42). -/
def serveSetPanelMode (r : Request) (s : State) : State :=
  match panelModeOf (byteAt r.payload 0) with
  | some m =>
    replyDone r.tag [BitVec.ofNat 8 (panelModeCode s.panel.mode)]
      (setPanel { resetAllAccel s.panel with mode := m } s)
  | none => refuseValue r s

/-- SetKeyBinding (R43). -/
def serveSetKeyBinding (r : Request) (s : State) : State :=
  let key := byteAt r.payload 0
  match s.panel.keys[key]?, keyActionOf (byteAt r.payload 1) (byteAt r.payload 2) with
  | some k, some a =>
    replyDone r.tag []
      (setPanel { s.panel with keys := s.panel.keys.set key { k with action := a } } s)
  | _, _ => refuseValue r s

/-- SetKnobBinding (R44). A knob outside 0..7 is refused before the target is looked at (log 23). -/
def serveSetKnobBinding (r : Request) (s : State) : State :=
  let knob := byteAt r.payload 0
  let target := byteAt r.payload 1
  match s.panel.knobs[knob]? with
  | none => refuseValue r s
  | some k =>
    if target ≠ 0 ∧ knownParam target = false then replyRefused r.tag r.kind .unknownParam .none s
    else
      replyDone r.tag []
        (setKnob knob { resetAccel k with target := if target = 0 then none else some target } s)

/-- The fields of a SetKnobShape payload are in range (R45). -/
def shapeOk (p : List Byte) : Bool :=
  let q := fieldAt p 5 2
  (byteAt p 1 == 1 || byteAt p 1 == 2 || byteAt p 1 == 4) && byteAt p 2 ≤ 15 &&
    1 ≤ byteAt p 3 && byteAt p 3 ≤ 16 && 1 ≤ byteAt p 4 && byteAt p 4 ≤ 100 && 5 ≤ q && q ≤ 500

/-- SetKnobShape (R45). -/
def serveSetKnobShape (r : Request) (s : State) : State :=
  let p := r.payload
  match s.panel.knobs[byteAt p 0]? with
  | none => refuseValue r s
  | some k =>
    if shapeOk p then
      replyDone r.tag []
        (setKnob (byteAt p 0) { resetAccel k with
          resolution := byteAt p 1, hold := byteAt p 2, ramp := byteAt p 3, maxMult := byteAt p 4
          quickMs := fieldAt p 5 2 } s)
    else refuseValue r s

/-- SetLampBinding (R46). -/
def serveSetLampBinding (r : Request) (s : State) : State :=
  let lamp := byteAt r.payload 0
  match s.panel.lamps[lamp]?, lampSourceOf (byteAt r.payload 1) (byteAt r.payload 2) with
  | some l, some src =>
    replyDone r.tag []
      (setPanel { s.panel with lamps := s.panel.lamps.set lamp { l with source := src } } s)
  | _, _ => refuseValue r s

/-- A pair of a SetLamp request names a lamp and a state, and no lamp is named twice (R47). -/
def lampPairsOk (lamps : Nat) : List (Nat × Nat) → Bool
  | [] => true
  | p :: rest => p.1 < lamps && p.2 ≤ 1 && rest.all (fun q => q.1 != p.1) && lampPairsOk lamps rest

/-- One lamp's host value written (R47). -/
def setHost (lamps : List Lamp) (p : Nat × Nat) : List Lamp :=
  match lamps[p.1]? with
  | some l => lamps.set p.1 { l with host := p.2 == 1 }
  | none => lamps

/-- SetLamp (R47). -/
def serveSetLamp (r : Request) (s : State) : State :=
  let pairs := setLampPairs r.payload
  if lampPairsOk s.panel.lamps.length pairs then
    replyDone r.tag [] (setPanel { s.panel with lamps := pairs.foldl setHost s.panel.lamps } s)
  else refuseValue r s

/-- The 14 bytes of a knob in a GetPanel reply (R48). -/
def knobBytes (k : Knob) : List Byte :=
  [BitVec.ofNat 8 (k.target.getD 0), BitVec.ofNat 8 k.resolution, BitVec.ofNat 8 k.hold,
    BitVec.ofNat 8 k.ramp, BitVec.ofNat 8 k.maxMult] ++ leBytes 2 k.quickMs ++ leInt 1 k.count ++
  [BitVec.ofNat 8 k.mult, BitVec.ofNat 8 k.run, if k.clockwise then 1 else 255, boolByte k.quick.isSome] ++
  leBytes 2 k.faults

/-- A code and an argument, one byte each. -/
def codeBytes (p : Nat × Nat) : List Byte := [BitVec.ofNat 8 p.1, BitVec.ofNat 8 p.2]

/-- The Done payload of GetPanel (R48). -/
def panelPayload (s : State) : List Byte :=
  BitVec.ofNat 8 (panelModeCode s.panel.mode) :: s.panel.keys.map (fun k => boolByte k.down) ++
    s.panel.keys.flatMap (fun k => codeBytes (keyActionCode k.action)) ++
    s.panel.knobs.flatMap knobBytes ++
    s.panel.lamps.flatMap (fun l => codeBytes (lampSourceCode l.source)) ++
    s.panel.lamps.map (fun l => boolByte l.host) ++ (lampOutputs s).map boolByte

/-- GetPanel (R48). -/
def serveGetPanel (r : Request) (s : State) : State := replyDone r.tag (panelPayload s) s

end Sys2Proof.Machine
end

