-- ==== Sys2Proof/Machine/Store.lean ====
section
/-! DEFINITION. The setup store while it runs: reading records, placing and writing them, reclaim, the operations, the queue, panel
recalls and locks (R162 to R183). The rebuild is in Machine/Rebuild.lean. -/

namespace Sys2Proof.Machine

/-! ## Tables -/

/-- The bytes of a sector (R162). -/
def sectorBytes : Nat := 4096

/-- The store replaced. -/
def setStore (st : Store) (s : State) : State := { s with store := st }

/-- A row of the sector table. -/
def sectorRow (sectors : List Sector) (k : Nat) : Sector := sectors.getD k ⟨.full, 0, 0⟩

/-- One row of the sector table changed. -/
def modifySector (k : Nat) (f : Sector → Sector) (sectors : List Sector) : List Sector :=
  sectors.set k (f (sectorRow sectors k))

/-- The lowest-numbered sector that satisfies `p`. -/
def findSector (p : Sector → Bool) (sectors : List Sector) : Option Nat :=
  (List.range sectors.length).find? fun k => p (sectorRow sectors k)

/-- The sectors in a state. -/
def inState (st : SectorState) (row : Sector) : Bool := row.state == st

/-- A slot's table entry (R166). -/
def slotEntry (s : State) (slot : Nat) : SlotEntry := s.store.slots.getD slot (.empty none)

/-- A slot's protected flag. -/
def slotProtected (s : State) (slot : Nat) : Bool :=
  match slotEntry s slot with
  | .present _ _ _ prot _ _ => prot
  | .empty _ => false

/-! ## NV bytes -/

/-- The bytes from an offset of a sector to the sector's end. -/
def sectorTail (nv : Memory) (sector offset : Nat) : List Byte :=
  memSlice nvDefault nv (sector * sectorBytes + offset) (sectorBytes - offset)

/-- A record programmed at an offset of a sector. -/
def programBytes (nv : Memory) (sector offset : Nat) (record : List Byte) : Memory :=
  memWriteBytes nvDefault nv (sector * sectorBytes + offset) record

/-- A sector's 4096 bytes erased (R162). -/
def eraseSector (nv : Memory) (sector : Nat) : Memory :=
  nv.filter fun c => !(sector * sectorBytes ≤ c.1 && c.1 < (sector + 1) * sectorBytes)

/-- The record at a place, read and checked again: none when it is no longer intact (R163, R174). -/
def readRecord (s : State) : RecordLoc → Option (List Byte)
  | .factory k => let r := s.store.factory.getD k []; if isIntact r then some r else none
  | .nv sector offset => intactRecord (sectorTail s.nv sector offset)

/-! ## Outcomes -/

/-- The kind of a store request, for its refusals (the kind-code table). A panel recall has none. -/
def opKind : StoreOp → Byte
  | .save _ _ _ _ => 0x28
  | .recall _ => 0x29
  | .delete _ => 0x2A
  | .protect _ _ => 0x2B
  | .listSlots _ _ => 0x2C
  | .exportSlot _ => 0x2D
  | .importSlot _ => 0x2E
  | .setPowerOn _ => 0x2F
  | .panelRecall _ => 0

/-- PanelRecall offered (R175). -/
def offerRecall (slot result clamps : Nat) (s : State) : State := offer (.panelRecall slot result clamps) s

/-- The PanelRecall result of a refused recall (R175). -/
def recallResult : Reason → Nat
  | .emptySlot => 1 | .badRecord => 2 | .unknownParam => 3 | _ => 4

/-- An operation ends refused: a Refused reply, or a PanelRecall notice (R174, R175). -/
def refuseOp (q : QueuedOp) (reason : Reason) (detail : Detail) (s : State) : State :=
  match q.op with
  | .panelRecall slot => offerRecall slot (recallResult reason) 0 s
  | .save _ _ _ _ | .recall _ | .delete _ | .protect _ _ | .listSlots _ _ | .exportSlot _ | .importSlot _
  | .setPowerOn _ => replyRefused q.tag (opKind q.op) reason detail s

/-! ## Writing records (R165, R169, R170) -/

/-- Records can be written: there is a Spare, and the sequence numbers are not used up (R165, R168). -/
def canWrite (st : Store) : Bool :=
  (findSector (inState .spare) st.sectors).isSome && st.seqCounter ≤ top32

/-- The operation in flight replaced. -/
def setInFlight (f : Option InFlight) (s : State) : State := setStore { s.store with inFlight := f } s

/-- Programming of the record in flight begins at the used-bytes offset of a sector (R169). -/
def programAt (sector : Nat) (f : InFlight) (s : State) : State :=
  let offset := (sectorRow s.store.sectors sector).used
  setStore { s.store with
    sectors := modifySector sector (fun r => { r with used := r.used + f.record.length }) s.store.sectors
    inFlight := some { f with stage := .programming sector offset } } s

/-- The live records a slot-table entry accounts for: place, offset and length (R166). -/
def entryLive : SlotEntry → List (Nat × LiveRecord)
  | .present (.nv sector offset) _ len _ _ _ => [(sector, ⟨offset, len⟩)]
  | .present (.factory _) _ _ _ _ _ => []
  | .empty (some (sector, offset)) => [(sector, ⟨offset, 16⟩)]
  | .empty none => []

/-- Every live record (R166). -/
def liveRecords (st : Store) : List (Nat × LiveRecord) :=
  st.slots.flatMap entryLive ++
    (match st.powerOnLoc with
     | some (sector, offset) => [(sector, ⟨offset, 17⟩)]
     | none => [])

/-- A record put in its place among records in rising offset. -/
def insertLive (r : LiveRecord) : List LiveRecord → List LiveRecord
  | [] => [r]
  | x :: xs => if r.offset ≤ x.offset then r :: x :: xs else x :: insertLive r xs

/-- The live records of a sector, in the order they lie in it (R170). -/
def liveIn (st : Store) (sector : Nat) : List LiveRecord :=
  ((liveRecords st).filter fun p => p.1 == sector).foldl (fun acc p => insertLive p.2 acc) []

/-- The victim: the Full sector with the fewest live bytes, the lowest-numbered of equals (R170). -/
def victimOf (sectors : List Sector) : Option Nat :=
  (List.range sectors.length).foldl (fun best k =>
    if inState .full (sectorRow sectors k) then
      match best with
      | some b => if (sectorRow sectors k).live < (sectorRow sectors b).live then some k else some b
      | none => some k
    else best) none

/-- The next copy of a reclaim begins, or the victim's erase (R170). -/
def copyNext (victim spare : Nat) (rest : List LiveRecord) (f : InFlight) (s : State) : State :=
  match rest with
  | r :: rest =>
    let dest := (sectorRow s.store.sectors spare).used
    setStore { s.store with
      sectors := modifySector spare (fun row => { row with used := row.used + r.len }) s.store.sectors
      inFlight := some { f with stage := .copying victim spare r dest rest } } s
  | [] => setInFlight (some { f with stage := .erasing victim (some spare) }) s

/-- A reclaim begins (R170). -/
def startReclaim (f : InFlight) (s : State) : State :=
  let f := { f with reclaimed := true }
  match victimOf s.store.sectors, findSector (inState .spare) s.store.sectors with
  | some victim, some spare =>
    match liveIn s.store victim with
    | [] => setInFlight (some { f with stage := .erasing victim none }) s
    | r :: rest => copyNext victim spare (r :: rest) f s
  | _, _ => refuseOp f.op .protectedSlot .none (setInFlight none s)

/-- The record in flight placed (R169). -/
def placeRecord (f : InFlight) (s : State) : State :=
  let sectors := s.store.sectors
  let active := findSector (inState .active) sectors
  match active.filter fun k => (sectorRow sectors k).used + f.record.length ≤ sectorBytes with
  | some k => programAt k f s
  | none =>
    let sectors := match active with
      | some k => modifySector k (fun r => { r with state := .full }) sectors
      | none => sectors
    let s := setStore { s.store with sectors := sectors } s
    match findSector (inState .erased) sectors with
    | some k =>
      programAt k f (setStore { s.store with
        sectors := modifySector k (fun _ => ⟨.active, 0, 0⟩) sectors } s)
    | none => startReclaim f s

/-- An operation that writes a record goes on to its NV work, or is refused with PROTECTED when no record can be
written (R165, R168, R169). -/
def writeRecord (q : QueuedOp) (record : List Byte) (s : State) : State :=
  if canWrite s.store then
    placeRecord
      { op := q, record := record, reclaimed := false, silent := false, stage := .programming 0 0 } s
  else refuseOp q .protectedSlot .none s

/-! ## The start of an operation (R171 to R181) -/

/-- A panel recall finds a lock: it waits, and the entry wants it (R174). -/
def waitForLock (slot : Nat) (s : State) : State :=
  setStore { s.store with
    waitingRecall := some slot
    locks := s.store.locks.map fun l => if l.slot = slot then { l with want := true } else l } s

/-- A recall that has passed its hold check: slot check, read, hand over (R174). -/
def startRecall (q : QueuedOp) (slot : Nat) (s : State) : State :=
  match slotEntry s slot with
  | .empty _ => refuseOp q .emptySlot .none s
  | .present loc _ _ _ _ _ =>
    match readRecord s loc with
    | none => refuseOp q .badRecord .none s
    | some r =>
      setInFlight (some { op := q, record := [], reclaimed := false, silent := false,
                          stage := .handed (recChangeSet r) }) s

/-- The 38 bytes of a slot in a ListSlots reply (R178). -/
def slotBytes (e : SlotEntry) : List Byte :=
  match e with
  | .empty _ => List.replicate 38 0
  | .present _ seq _ prot hasMask label =>
    [1, BitVec.ofNat 8 (setupFlags prot hasMask label.isSome)] ++ leBytes 4 seq ++
      label.getD (List.replicate 32 0)

/-- The Done payload of ListSlots (R178). -/
def listPayload (s : State) (first count : Nat) : List Byte :=
  [BitVec.ofNat 8 s.store.powerOnSlot,
    BitVec.ofNat 8 (s.store.sectors.filter (inState .erased)).length] ++
  ((s.store.slots.drop first).take count).flatMap slotBytes

/-- The flags of a record with its protected flag as given (R177). -/
def flagsWith (r : List Byte) (prot : Bool) : Nat := recFlags r / 2 * 2 + prot.toNat

/-- Save starts (R173). -/
def startSave (q : QueuedOp) (slot : Nat) (label : Option (List Byte))
    (snapshot : List Int × Option (List Zone)) (s : State) : State :=
  if slotProtected s slot then refuseOp q .protectedSlot .none s
  else writeRecord q (setupRecord slot s.store.seqCounter false snapshot.1 snapshot.2 label) s

/-- Delete starts (R176). -/
def startDelete (q : QueuedOp) (slot : Nat) (s : State) : State :=
  match slotEntry s slot with
  | .empty _ => refuseOp q .emptySlot .none s
  | .present _ _ _ prot _ _ =>
    if prot then refuseOp q .protectedSlot .none s
    else writeRecord q (deletionRecord slot s.store.seqCounter) s

/-- Protect starts (R177). -/
def startProtect (q : QueuedOp) (slot : Nat) (flag : Bool) (s : State) : State :=
  match slotEntry s slot with
  | .empty _ => refuseOp q .emptySlot .none s
  | .present loc seq _ prot _ _ =>
    if prot = flag then replyDone q.tag (leBytes 4 seq ++ [0]) s
    else
      match readRecord s loc with
      | none => refuseOp q .badRecord .none s
      | some r => writeRecord q (restamp r (flagsWith r flag) s.store.seqCounter) s

/-- ExportSlot starts (R179). -/
def startExport (q : QueuedOp) (slot : Nat) (s : State) : State :=
  match slotEntry s slot with
  | .empty _ => refuseOp q .emptySlot .none s
  | .present loc _ _ _ _ _ =>
    match readRecord s loc with
    | none => refuseOp q .badRecord .none s
    | some r => replyDone q.tag r s

/-- ImportSlot starts (R180). -/
def startImport (q : QueuedOp) (record : List Byte) (s : State) : State :=
  if slotProtected s (recSlot record) then refuseOp q .protectedSlot .none s
  else writeRecord q (restamp record (recFlags record) s.store.seqCounter) s

/-- An operation starts (R171). -/
def startOp (q : QueuedOp) (s : State) : State :=
  match q.op with
  | .save slot withMask label snapshot =>
    startSave q slot label
      (snapshot.getD (s.setup.values, if withMask then s.setup.mask else none)) s
  | .recall slot => startRecall q slot s
  | .panelRecall slot =>
    if s.store.locks.any fun l => l.slot == slot then waitForLock slot s else startRecall q slot s
  | .delete slot => startDelete q slot s
  | .protect slot flag => startProtect q slot flag s
  | .listSlots first count => replyDone q.tag (listPayload s first count) s
  | .exportSlot slot => startExport q slot s
  | .importSlot record => startImport q record s
  | .setPowerOn slot => writeRecord q (controlRecord slot s.store.seqCounter) s

/-- The queue replaced. -/
def setQueue (queue : List QueuedOp) (s : State) : State := setStore { s.store with queue := queue } s

/-- Operations start in the order they arrived, until one is in flight (R171). -/
def serveQueue : List QueuedOp → State → State
  | [], s => setQueue [] s
  | q :: rest, s =>
    let s := startOp q (setQueue rest s)
    if s.store.inFlight.isSome then s else serveQueue rest s

/-- The store serves its queue: after the power-on load, when no operation is in flight (R171). -/
def serveStore (s : State) : State :=
  if s.setup.loadApplied && s.store.inFlight.isNone then serveQueue s.store.queue s else s

/-! ## The end of NV work -/

/-- The place and length of the record a slot's entry holds live (R166). -/
def addLive (sector len : Nat) (sectors : List Sector) : List Sector :=
  modifySector sector (fun r => { r with live := r.live + len }) sectors

/-- Live records that are live no longer (R166). -/
def dropLive (old : List (Nat × LiveRecord)) (sectors : List Sector) : List Sector :=
  old.foldl (fun ss p => modifySector p.1 (fun r => { r with live := r.live - p.2.len }) ss) sectors

/-- A slot's entry replaced, the live bytes moved (R169). -/
def replaceEntry (slot : Nat) (e : SlotEntry) (sector len : Nat) (st : Store) : Store :=
  { st with
    slots := st.slots.set slot e
    sectors := addLive sector len (dropLive (entryLive (st.slots.getD slot (.empty none))) st.sectors) }

/-- The tables once a written record is intact at its place (R169, R176, R181). -/
def adoptRecord (op : StoreOp) (record : List Byte) (sector offset : Nat) (st : Store) : Store :=
  let present := entryOf (.nv sector offset) record
  match op with
  | .save slot _ _ _ | .protect slot _ => replaceEntry slot present sector record.length st
  | .importSlot _ => replaceEntry (recSlot record) present sector record.length st
  | .delete slot => replaceEntry slot (.empty (some (sector, offset))) sector record.length st
  | .setPowerOn slot =>
    let old := match st.powerOnLoc with | some (a, o) => [(a, ⟨o, 17⟩)] | none => []
    { st with
      powerOnSlot := slot, powerOnLoc := some (sector, offset)
      sectors := addLive sector record.length (dropLive old st.sectors) }
  | .recall _ | .panelRecall _ | .listSlots _ _ | .exportSlot _ => st

/-- The Done payload of an operation that has written its record (R173, R176, R177, R180, R181). -/
def writtenPayload (f : InFlight) : List Byte :=
  let seq := leBytes 4 (recSeq f.record)
  match f.op.op with
  | .save _ _ _ _ => seq ++ [boolByte f.reclaimed]
  | .protect _ _ => seq ++ [1]
  | .importSlot _ => BitVec.ofNat 8 (recSlot f.record) :: seq
  | .delete _ | .setPowerOn _ => seq
  | .recall _ | .panelRecall _ | .listSlots _ _ | .exportSlot _ => []

/-- The operation in flight has written its record: tables, sequence counter, reply, and the next operation starts
(R165, R169, R184). -/
def recordWritten (f : InFlight) (sector offset : Nat) (s : State) : State :=
  let s : State := { s with nv := programBytes s.nv sector offset f.record }
  let st := adoptRecord f.op.op f.record sector offset s.store
  let s := setStore { st with seqCounter := st.seqCounter + 1, inFlight := none } s
  serveStore (if f.silent then s else replyDone f.op.tag (writtenPayload f) s)

/-- An entry that referred to a record in the victim refers to its copy (R170). -/
def moveEntry (victim old spare new : Nat) : SlotEntry → SlotEntry
  | .present (.nv a o) seq len prot hasMask label =>
    if a = victim ∧ o = old then .present (.nv spare new) seq len prot hasMask label
    else .present (.nv a o) seq len prot hasMask label
  | .present (.factory k) seq len prot hasMask label => .present (.factory k) seq len prot hasMask label
  | .empty (some (a, o)) => if a = victim ∧ o = old then .empty (some (spare, new)) else .empty (some (a, o))
  | .empty none => .empty none

/-- A reclaim copy is complete: the references and the live bytes move (R170). -/
def copyDone (f : InFlight) (victim spare : Nat) (r : LiveRecord) (dest : Nat) (rest : List LiveRecord)
    (s : State) : State :=
  let bytes := memSlice nvDefault s.nv (victim * sectorBytes + r.offset) r.len
  let s : State := { s with nv := programBytes s.nv spare dest bytes }
  let s := setStore { s.store with
    slots := s.store.slots.map (moveEntry victim r.offset spare dest)
    powerOnLoc := if s.store.powerOnLoc = some (victim, r.offset) then some (spare, dest) else s.store.powerOnLoc
    sectors := addLive spare r.len (dropLive [(victim, r)] s.store.sectors) } s
  copyNext victim spare rest f s

/-- The NV program in progress ends (R169, R170). -/
def programDone (s : State) : State :=
  match s.store.inFlight with
  | some f =>
    match f.stage with
    | .programming sector offset => recordWritten f sector offset s
    | .copying victim spare r dest rest => copyDone f victim spare r dest rest s
    | .erasing _ _ | .handed _ => s
  | none => s

/-- The roles after the victim's erase (R170). -/
def eraseRoles (victim : Nat) (spare : Option Nat) (sectors : List Sector) : List Sector :=
  match spare with
  | some k =>
    modifySector victim (fun _ => ⟨.spare, 0, 0⟩) (modifySector k (fun r => { r with state := .active }) sectors)
  | none => modifySector victim (fun _ => ⟨.active, 0, 0⟩) sectors

/-- The victim of a reclaim is erased, and the record in flight is placed (R169, R170). -/
def reclaimErased (f : InFlight) (victim : Nat) (spare : Option Nat) (s : State) : State :=
  placeRecord f (setStore { s.store with sectors := eraseRoles victim spare s.store.sectors }
    { s with nv := eraseSector s.nv victim })

/-! ## Arrival (R171, R173 to R181) -/

/-- The operation is a panel recall: it takes the panel place. -/
def isPanelOp (q : QueuedOp) : Bool :=
  match q.op with
  | .panelRecall _ => true
  | .save _ _ _ _ | .recall _ | .delete _ | .protect _ _ | .listSlots _ _ | .exportSlot _ | .importSlot _
  | .setPowerOn _ => false

/-- The host places (R171). -/
def hostPlaces : Nat := 4

/-- An operation whose arrival checks have passed takes a host place, or finds none free (R171). -/
def takePlace (r : Request) (op : StoreOp) (s : State) : State :=
  if hostPlaces ≤ (s.store.queue.filter fun q => !isPanelOp q).length then
    replyRefused r.tag r.kind .storeBusy .none s
  else serveStore (setQueue (s.store.queue ++ [{ tag := r.tag, op := op }]) s)

/-- The slot a store payload begins with. -/
def slotOf (r : Request) : Nat := byteAt r.payload 0

/-- A slot outside 0..63 is refused with BAD_VALUE on arrival. -/
def withSlot (r : Request) (f : Nat → State → State) (s : State) : State :=
  if 63 < slotOf r then replyRefused r.tag r.kind .badValue .none s else f (slotOf r) s

/-- A slot outside 0..63 is refused with BAD_VALUE, and slots 0..3 with PROTECTED (R163). -/
def withUserSlot (r : Request) (f : Nat → State → State) (s : State) : State :=
  withSlot r (fun slot s => if slot < 4 then replyRefused r.tag r.kind .protectedSlot .none s else f slot s) s

/-- The snapshot a Save takes when it takes its place, or none before the power-on load (R173). -/
def snapshotNow (withMask : Bool) (s : State) : Option (List Int × Option (List Zone)) :=
  if s.setup.loadApplied then some (s.setup.values, if withMask then s.setup.mask else none) else none

/-- Save arrives (R173): the slot is checked before the options (log 23). -/
def serveSave (r : Request) (s : State) : State :=
  withUserSlot r (fun slot s =>
    let options := byteAt r.payload 1
    if 1 < options then refuseValue r s
    else
      let label := if r.payload.length = 34 then some (r.payload.drop 2) else none
      takePlace r (.save slot (options == 1) label (snapshotNow (options == 1) s)) s) s

/-- Recall arrives (R174). -/
def serveRecall (r : Request) (s : State) : State :=
  withSlot r (fun slot s => takePlace r (.recall slot) s) s

/-- Delete arrives (R176). -/
def serveDelete (r : Request) (s : State) : State :=
  withUserSlot r (fun slot s => takePlace r (.delete slot) s) s

/-- Protect arrives (R177): the slot is checked before the flag (log 23). -/
def serveProtect (r : Request) (s : State) : State :=
  withUserSlot r (fun slot s =>
    let flag := byteAt r.payload 1
    if 1 < flag then refuseValue r s else takePlace r (.protect slot (flag == 1)) s) s

/-- ListSlots arrives (R178). -/
def serveListSlots (r : Request) (s : State) : State :=
  let count := byteAt r.payload 1
  if count < 1 ∨ 32 < count ∨ 64 < slotOf r + count then refuseValue r s
  else takePlace r (.listSlots (slotOf r) count) s

/-- ExportSlot arrives (R179). -/
def serveExportSlot (r : Request) (s : State) : State :=
  withSlot r (fun slot s => takePlace r (.exportSlot slot) s) s

/-- ImportSlot arrives (R180). -/
def serveImportSlot (r : Request) (s : State) : State :=
  if isIntact r.payload = false ∨ recKind r.payload ≠ 1 ∨ 63 < recSlot r.payload then
    replyRefused r.tag r.kind .badRecord .none s
  else if recSlot r.payload < 4 then replyRefused r.tag r.kind .protectedSlot .none s
  else takePlace r (.importSlot r.payload) s

/-- SetPowerOn arrives (R181). -/
def serveSetPowerOn (r : Request) (s : State) : State :=
  withSlot r (fun slot s => takePlace r (.setPowerOn slot) s) s

/-! ## Recalls end (R23, R174, R175) -/

/-- An applied recall's outcome: a Done reply or a PanelRecall notice (R174, R175). -/
def recallApplied (q : QueuedOp) (clamps : Nat) (s : State) : State :=
  match q.op with
  | .panelRecall slot => offerRecall slot 0 clamps s
  | .save _ _ _ _ | .recall _ | .delete _ | .protect _ _ | .listSlots _ _ | .exportSlot _ | .importSlot _
  | .setPowerOn _ => replyDone q.tag [BitVec.ofNat 8 clamps] s

/-- The setup controller takes the change set of the recall in flight (R23, R174). Of an applied panel recall's two
notices, ParamChanged is offered first and PanelRecall after it (R19, R175; log 12). -/
def takeRecallSet (s : State) : State :=
  match s.store.inFlight with
  | some f =>
    match f.stage with
    | .handed cs =>
      let s := setInFlight none s
      serveStore (match judgeSet cs s with
        | .error e => refuseOp f.op e.reason e.detail s
        | .ok o => recallApplied f.op (clampCount o) (applySet o s))
    | .programming _ _ | .copying _ _ _ _ _ | .erasing _ _ => s
  | none => s

/-! ## Panel recalls and locks (R172, R182, R183) -/

/-- PanelRecall notices for replaced recalls (R172, R175). -/
def offerReplaced (slots : List Nat) (s : State) : State :=
  slots.foldl (fun s slot => offerRecall slot 5 0 s) s

/-- The slots of the panel recalls that a new one replaces: the one in the panel place, the one waiting (R172). -/
def replacedRecalls (st : Store) : List Nat :=
  st.queue.filterMap (fun q => match q.op with | .panelRecall slot => some slot | _ => none) ++
    st.waitingRecall.toList

/-- The store takes the oldest panel recall handed on (R172). -/
def takePanelRecall (s : State) : State :=
  match s.panel.toStore with
  | [] => s
  | slot :: rest =>
    let s : State := { s with panel := { s.panel with toStore := rest } }
    let s := offerReplaced (replacedRecalls s.store) s
    let locks := match s.store.waitingRecall with
      | some w => s.store.locks.map fun l => if l.slot = w then { l with want := false } else l
      | none => s.store.locks
    serveStore (setStore { s.store with
      queue := (s.store.queue.filter fun q => !isPanelOp q) ++ [{ tag := 0, op := .panelRecall slot }]
      waitingRecall := none, locks := locks } s)

/-- The most holds of a lock entry, and the most lock entries (09, Locks). -/
def maxHolds : Nat := 15
def maxLocks : Nat := 4

/-- A slot's lock entry. -/
def lockOf (locks : List Lock) (slot : Nat) : Option Lock := locks.find? fun l => l.slot == slot

/-- A lock entry's count replaced. -/
def setCount (slot count : Nat) (locks : List Lock) : List Lock :=
  locks.map fun l => if l.slot = slot then { l with count := count } else l

/-- Hold (R182). -/
def serveHold (r : Request) (s : State) : State :=
  withUserSlot r (fun slot s =>
    match lockOf s.store.locks slot with
    | some l =>
      if maxHolds ≤ l.count then replyRefused r.tag r.kind .holdLimit .none s
      else
        replyDone r.tag [BitVec.ofNat 8 (l.count + 1)]
          (setStore { s.store with locks := setCount slot (l.count + 1) s.store.locks } s)
    | none =>
      if maxLocks ≤ s.store.locks.length then replyRefused r.tag r.kind .noLockEntry .none s
      else
        replyDone r.tag [1]
          (setStore { s.store with locks := s.store.locks ++ [⟨slot, 1, false⟩] } s)) s

/-- A lock entry freed; a recall that waited for it takes the panel place (R183). -/
def freeLock (l : Lock) (s : State) : State :=
  let s := setStore { s.store with locks := s.store.locks.filter fun e => e.slot != l.slot } s
  if l.want then
    setStore { s.store with
      waitingRecall := none
      queue := s.store.queue ++ [{ tag := 0, op := .panelRecall l.slot }] } s
  else s

/-- Release (R183). -/
def serveRelease (r : Request) (s : State) : State :=
  withSlot r (fun slot s =>
    match lockOf s.store.locks slot with
    | none => replyRefused r.tag r.kind .notHeld .none s
    | some l =>
      if l.count ≤ 1 then serveStore (replyDone r.tag [0, boolByte l.want] (freeLock l s))
      else
        replyDone r.tag [BitVec.ofNat 8 (l.count - 1), 0]
          (setStore { s.store with locks := setCount slot (l.count - 1) s.store.locks } s)) s

end Sys2Proof.Machine
end

