-- ==== Sys2Proof/Machine/Rebuild.lean ====
section
/-! DEFINITION. The power-up rebuild of the store's tables from the NV area, and the power-on load (R24, R94, R165 to R168). -/

namespace Sys2Proof.Machine

/-! ## The scan (R167) -/

/-- An intact record that the scan noted: where it lies, and its bytes. -/
structure Found where
  sector : Nat
  offset : Nat
  bytes : List Byte
  deriving DecidableEq, Repr

/-- The scan of a sector: its records in order, the offset at which it ended, and whether it ended on erased
bytes. -/
structure SectorScan where
  records : List Found
  stop : Nat
  onErased : Bool
  deriving DecidableEq, Repr

/-- The two bytes at an offset of a sector are both erased. The last byte of a sector has none after it and ends no
records (log 18). -/
def erasedAt (nv : Memory) (sector offset : Nat) : Bool :=
  decide (offset + 2 ≤ sectorBytes) && memRead nvDefault nv (sector * sectorBytes + offset) == nvDefault &&
    memRead nvDefault nv (sector * sectorBytes + offset + 1) == nvDefault

/-- The records of a sector from an offset on. `fuel` bounds their number: a record takes at least 16 bytes. -/
def scanFrom (nv : Memory) (sector : Nat) : Nat → Nat → SectorScan
  | 0, offset => ⟨[], offset, false⟩
  | fuel + 1, offset =>
    if erasedAt nv sector offset then ⟨[], offset, true⟩
    else
      match intactRecord (sectorTail nv sector offset) with
      | some r =>
        let rest := scanFrom nv sector fuel (offset + r.length)
        { rest with records := ⟨sector, offset, r⟩ :: rest.records }
      | none => ⟨[], offset, false⟩

/-- The scan of a sector (R167). -/
def scanSector (nv : Memory) (sector : Nat) : SectorScan := scanFrom nv sector 257 0

/-- Every byte of a sector from an offset on is erased. -/
def tailErased (nv : Memory) (sector offset : Nat) : Bool :=
  nv.all fun c =>
    c.2 == nvDefault || c.1 < sector * sectorBytes + offset || (sector + 1) * sectorBytes ≤ c.1

/-- What a sector's scan makes it (R167). -/
inductive ScanResult where
  | erased | full | candidate
  deriving DecidableEq, Repr

/-- The table of R167. -/
def scanResult (nv : Memory) (sector : Nat) (sc : SectorScan) : ScanResult :=
  if tailErased nv sector 0 then .erased
  else if sc.onErased && tailErased nv sector sc.stop && !sc.records.isEmpty then .candidate
  else .full

/-! ## Winners and copies (R168) -/

/-- What a record speaks for: a slot 4..63, or 64 for the power-on choice; none for a record that takes no part
(R168). -/
def recordKey (r : List Byte) : Option Nat :=
  if recKind r = 3 then if recPowerOn r ≤ 63 then some 64 else none
  else if userSlot (recSlot r) then some (recSlot r) else none

/-- The greatest sequence of some records. -/
def greatestSeq (found : List Found) : Nat := found.foldl (fun m f => max m (recSeq f.bytes)) 0

/-- The records that speak for a key with its highest sequence: the winner, or its identical copies. -/
def winnersOf (found : List Found) (key : Nat) : List Found :=
  let own := found.filter fun f => recordKey f.bytes == some key
  own.filter fun f => recSeq f.bytes == greatestSeq own

/-- The keys: the user slots and the power-on choice. -/
def allKeys : List Nat := (List.range 61).map (· + 4)

/-- The two sectors that hold copies of one winning record, the lower-numbered first, if any do. -/
def copyPair (found : List Found) : Option (Nat × Nat) :=
  allKeys.findSome? fun key =>
    match winnersOf found key with
    | a :: b :: _ => some (min a.sector b.sector, max a.sector b.sector)
    | _ => none

/-- Sector `a` holds a record among `rs` of which sector `b` holds no copy. -/
def holdsAlone (rs : List Found) (a b : Nat) : Bool :=
  (rs.filter fun f => f.sector == a).any fun f =>
    !((rs.filter fun g => g.sector == b).any fun g => g.bytes == f.bytes)

/-- The sector of a pair whose copies are used (R168, step 1). Where each holds what the other lacks, the next test
decides (log 26). -/
def preferredSector (nv : Memory) (scans : List SectorScan) (found : List Found) (a b : Nat) : Nat :=
  let winners := allKeys.flatMap (winnersOf found)
  let winA := holdsAlone winners a b
  let winB := holdsAlone winners b a
  let anyA := holdsAlone found a b
  let anyB := holdsAlone found b a
  let cleanEnd := fun k =>
    let sc := scans.getD k ⟨[], 0, false⟩
    sc.onErased && tailErased nv k sc.stop
  if winA != winB then if winA then a else b
  else if anyA != anyB then if anyA then b else a
  else if cleanEnd a != cleanEnd b then if cleanEnd a then a else b
  else a

/-- The winner of a key: the copy in the preferred sector where there are copies (R168). -/
def winnerOf (found : List Found) (preferred : Option Nat) (key : Nat) : Option Found :=
  let ws := winnersOf found key
  match ws.find? fun f => some f.sector == preferred with
  | some f => some f
  | none => ws.head?

/-! ## The tables (R167, R168) -/

/-- The Active sector: the candidate with the highest sequence, the preferred one of two with the same (R167). -/
def activeSector (nv : Memory) (scans : List SectorScan) (preferred : Option Nat) : Option Nat :=
  let candidates := (List.range scans.length).filter fun k =>
    scanResult nv k (scans.getD k ⟨[], 0, false⟩) == .candidate
  let seqOf := fun k => greatestSeq (scans.getD k ⟨[], 0, false⟩).records
  let best := candidates.foldl (fun m k => max m (seqOf k)) 0
  let tied := candidates.filter fun k => seqOf k == best
  match tied.find? fun k => some k == preferred with
  | some k => some k
  | none => tied.head?

/-- A slot's entry from its winner (R168). -/
def entryFrom : Option Found → SlotEntry
  | none => .empty none
  | some f =>
    if recKind f.bytes = 1 then entryOf (.nv f.sector f.offset) f.bytes
    else .empty (some (f.sector, f.offset))

/-- The state of a sector after the rebuild, before a Spare is made (R167). -/
def rebuiltState (nv : Memory) (active : Option Nat) (k : Nat) (sc : SectorScan) : SectorState :=
  match scanResult nv k sc with
  | .erased => .erased
  | .full => .full
  | .candidate => if active = some k then .active else .full

/-- The live bytes of a sector, from the winners used (R166). -/
def liveBytesOf (used : List Found) (k : Nat) : Nat :=
  ((used.filter fun f => f.sector == k).map fun f => f.bytes.length).sum

/-- The Spare made of the lowest-numbered Erased sector, or the sector that must be erased first (R168, step
4). -/
def makeSpare (sectors : List Sector) : List Sector × Option Nat :=
  match findSector (inState .erased) sectors with
  | some k => (modifySector k (fun r => { r with state := .spare }) sectors, none)
  | none => (sectors, findSector (fun r => !inState .active r && r.live == 0) sectors)

/-- The store's tables made from the NV area (R165 to R168). -/
def rebuildTables (nv : Memory) (st : Store) : Store :=
  let scans := (List.range 32).map (scanSector nv)
  let found := scans.flatMap (·.records)
  let preferred := (copyPair found).map fun p => preferredSector nv scans found p.1 p.2
  let used := allKeys.filterMap (winnerOf found preferred)
  let active := activeSector nv scans preferred
  let rows := (scans.zip (List.range 32)).map fun p =>
    { state := rebuiltState nv active p.2 p.1, used := p.1.stop, live := liveBytesOf used p.2 : Sector }
  let spare := makeSpare rows
  let control := winnerOf found preferred 64
  { st with
    sectors := spare.1
    rebuildErase := spare.2
    slots := (st.slots.take 4) ++
      ((List.range 60).map fun i => entryFrom (winnerOf found preferred (i + 4)))
    powerOnSlot := match control with | some f => recPowerOn f.bytes | none => 0
    powerOnLoc := control.map fun f => (f.sector, f.offset)
    seqCounter := if found.isEmpty then 1 else greatestSeq found + 1 }

/-! ## The power-on load (R24, R94, R168) -/

/-- A slot's change set judged for the load; none when the slot is empty, its record is bad or the set is
refused. -/
def tryLoad (s : State) (slot : Nat) : Option SetOutcome :=
  match slotEntry s slot with
  | .empty _ => none
  | .present loc _ _ _ _ _ =>
    match readRecord s loc with
    | none => none
    | some r => match judgeSet (recChangeSet r) s with | .ok o => some o | .error _ => none

/-- What the power-on load applies, and whether it fell back (R24, R168). -/
def loadChoice (s : State) : Option SetOutcome × Bool :=
  match tryLoad s s.store.powerOnSlot with
  | some o => (some o, false)
  | none => (tryLoad s 0, true)

/-- The live setup loaded: words, settle timer, and the panel scan with each knob's lines read (R24, R26). -/
def loadSetup (s : State) : State :=
  let s := match (loadChoice s).1, (loadChoice s).2 with
    | some o, fb => putSetup o { s with setup := { s.setup with fallback := fb } }
    | none, fb => { s with setup := { s.setup with fallback := fb } }
  let s := startSettle (emitWords [1, 2, 3, 4] { s with setup := { s.setup with loadApplied := true } })
  setPanel { s.panel with
    scanning := true
    knobs := (s.panel.knobs.zip s.pins.knobLines).map fun p => { p.1 with lines := p.2 } } s

/-- The power-on Run, with no reply (R94). -/
def powerOnRun (s : State) : State := (captureRun { s with cap := { s.cap with runTaken := true } }).1

/-- Saves that took their places before the load take their snapshots (R173). -/
def takeSnapshots (s : State) : State :=
  setQueue (s.store.queue.map fun q =>
    match q.op with
    | .save slot withMask label none => { q with op := .save slot withMask label (snapshotNow withMask s) }
    | .save _ _ _ (some _) | .recall _ | .panelRecall _ | .delete _ | .protect _ _ | .listSlots _ _
    | .exportSlot _ | .importSlot _ | .setPowerOn _ => q) s

/-- The setup controller's waiting requests taken, in the order they arrived (R24). -/
def serveSetupWaiting (s : State) : State :=
  s.setup.waiting.foldl (fun s r => serveSetupRequest r s) { s with setup := { s.setup with waiting := [] } }

/-- The capture controller's waiting requests taken, in the order they arrived (R94). -/
def serveCaptureWaiting (s : State) : State :=
  s.cap.waiting.foldl (fun s r => serveCaptureRequest r s) { s with cap := { s.cap with waiting := [] } }

/-- The rebuild is done: the power-on load, the power-on Run, and what waited for them (R24, R94, R168). -/
def powerOnLoad (s : State) : State :=
  let s := takeSnapshots (loadSetup (setStore { s.store with rebuilding := false, rebuildErase := none } s))
  serveStore (serveCaptureWaiting (serveSetupWaiting (powerOnRun s)))

/-- The rebuild has scanned the NV area (R167, R168). -/
def finishRebuild (s : State) : State :=
  if s.store.rebuilding && s.store.rebuildErase.isNone then
    let s := setStore (rebuildTables s.nv s.store) s
    if s.store.rebuildErase.isSome then s else powerOnLoad s
  else s

/-- The sector the rebuild erases to make a Spare is erased (R168, step 4). -/
def rebuildErased (k : Nat) (s : State) : State :=
  powerOnLoad (setStore { s.store with sectors := modifySector k (fun _ => ⟨.spare, 0, 0⟩) s.store.sectors }
    { s with nv := eraseSector s.nv k })

/-- The NV erase in progress ends (R168, R170). -/
def eraseDone (s : State) : State :=
  match s.store.rebuildErase with
  | some k => rebuildErased k s
  | none =>
    match s.store.inFlight with
    | some f =>
      match f.stage with
      | .erasing victim spare => reclaimErased f victim spare s
      | .programming _ _ | .copying _ _ _ _ _ | .handed _ => s
    | none => s

end Sys2Proof.Machine
end

