-- ==== Sys2Proof/Machine/Resets.lean ====
section
/-! DEFINITION. Power-on, loss of power and the soft reset (R24, R25, R49, R66, R94, R95, R111, R112, R136, R147, R161, R167, R169,
R184, R185, R193, R206). -/

namespace Sys2Proof.Machine

/-! ## The soft reset -/

/-- The setup controller at a soft reset: the live setup and the settle timer stay; requests that wait are
discarded (R25). -/
def softSetup (u : Setup) : Setup := { u with waiting := [] }

/-- The capture controller at a soft reset (R95). -/
def softCapture (c : Capture) : Capture :=
  { captureAtPowerOn with
    capNo := c.capNo, serial := c.serial, runTaken := c.runTaken, nextIdent := c.nextIdent }

/-- A bank at a soft reset (R112). -/
def softBank : Bank → Bank
  | .refreshing => .refreshing
  | .closed | .openRow _ => .closed

/-- The memory scheduler at a soft reset (R112). -/
def softSched (m : Sched) : Sched :=
  { m with
    banks := m.banks.map softBank, scanQ := [], rasterQ := [], readQ := [], pass := [0, 0, 0, 0], owed := 0
    afterReset := m.refreshing.isSome }

/-- The scan-out controller at a soft reset. A power-on clear in progress places the rest of its writes afresh
(R161). -/
def softScan (c : ScanOut) : ScanOut :=
  { c with
    front := .setA, planesCleared := false, lateLines := 0, fetch := none
    overlayWork := (c.overlayWork.filter fun j => j.reply.isNone).map fun j => { j with placed := j.granted } }

/-- The operation in flight at a soft reset: NV work runs on in silence, anything else ends (R184). -/
def softInFlight (f : InFlight) : Option InFlight :=
  match f.stage with
  | .handed _ => none
  | .programming _ _ | .copying _ _ _ _ _ | .erasing _ _ => some { f with silent := true }

/-- The setup store at a soft reset (R184). -/
def softStore (st : Store) : Store :=
  { st with
    queue := [], waitingRecall := none, locks := [], inFlight := st.inFlight.bind softInFlight }

/-- The soft reset of every block (R205). -/
def softReset (s : State) : State :=
  { s with
    setup := softSetup s.setup
    panel := panelAtReset s.pins.knobLines s.setup.loadApplied
    trig := triggerAtReset s.trig.timestamp s.pins.ext
    cap := softCapture s.cap
    mem := softSched s.mem
    ras := rasterAtReset
    mask := ⟨0, 0⟩
    scan := softScan s.scan
    store := softStore s.store
    rd := readoutAtReset
    link := linkAtReset s.link.outByte }

/-! ## Power -/

/-- What a program that power cut off may leave of its bytes: some whole ones, and one part-programmed (R167,
R169; free values, log 5). -/
def partialBytes (cut : Nat) (record : List Byte) : List Byte :=
  record.take (min (Config.bytesProgrammed cut) (record.length - 1)) ++ [Config.cutByte cut]

/-- A program of the record at a place has begun and is not complete, as a scan finds it: no erased bytes, and no
intact record (R167, R169). -/
def leavesPartial (nv : Memory) (sector offset : Nat) : Bool :=
  !erasedAt nv sector offset && (intactRecord (sectorTail nv sector offset)).isNone

/-- The NV area after power cut off a program. The record is partial (R169): free values that would leave it whole
or untouched leave its first byte alone (log 5). -/
def cutProgram (cut : Nat) (nv : Memory) (sector offset : Nat) (record : List Byte) : Memory :=
  let left := programBytes nv sector offset (partialBytes cut record)
  if leavesPartial left sector offset then left else programBytes nv sector offset (record.take 1)

/-- What an erase that power cut off leaves: a half-erased sector (R167, R185; free values, log 5). -/
def halfErase (cut : Nat) (nv : Memory) (sector : Nat) : Memory :=
  memWriteBytes nvDefault nv (sector * sectorBytes) ((List.range sectorBytes).map (Config.halfErasedByte cut))

/-- The NV area as a loss of power leaves the work of a stage. -/
def cutStage (cut : Nat) (record : List Byte) (nv : Memory) : StoreStage → Memory
  | .programming sector offset => cutProgram cut nv sector offset record
  | .copying victim spare r dest _ =>
    cutProgram cut nv spare dest (memSlice nvDefault nv (victim * sectorBytes + r.offset) r.len)
  | .erasing victim _ => halfErase cut nv victim
  | .handed _ => nv

/-- The NV area as a loss of power leaves it (R169, R185). -/
def cutNv (s : State) : Memory :=
  match s.store.rebuildErase, s.store.inFlight with
  | some k, _ => halfErase s.cuts s.nv k
  | none, some f => cutStage s.cuts f.record s.nv f.stage
  | none, none => s.nv

/-- Power is lost: the NV area is what is left, and the part does nothing until power comes back (R169; log
4). -/
def losePower (s : State) : State := { s with nv := cutNv s, cuts := s.cuts + 1, powered := false }

/-- The power-on reset of every block, over the NV and factory areas and the pins as they stand. -/
def powerOnReset (s : State) : State :=
  { pending := s.pending, powered := true, cuts := s.cuts, pins := s.pins, setup := setupAtPowerOn
    panel := panelAtReset s.pins.knobLines false, trig := triggerAtReset 0 s.pins.ext
    cap := captureAtPowerOn, mem := schedAtPowerOn, dram := [], ras := rasterAtReset, mask := ⟨0, 0⟩
    scan := scanAtPowerOn, store := storeAtPowerOn s.store.factory, nv := s.nv, rd := readoutAtReset
    link := linkAtReset 0 }

/-- Power is applied. A part that still has power loses it first (log 4). -/
def applyPower (s : State) : State := powerOnReset (if s.powered then losePower s else s)

end Sys2Proof.Machine
end

