-- ==== Sys2Proof/Machine/Link.lean ====
section
/-! DEFINITION. The control link: frames, faults, acceptance, hand-over, replies, sending, and its own requests (R194 to
R205). -/

namespace Sys2Proof.Machine

/-- The link replaced. -/
def setLink (l : Link) (s : State) : State := { s with link := l }

/-! ## Frames (R194) -/

/-- The sync byte (R194). -/
def syncByte : Byte := 0xA5

/-- The longest payload (R194). -/
def maxPayload : Nat := 2112

/-- A frame (R194). -/
def frameBytes (kind tag : Byte) (payload : List Byte) : List Byte :=
  let body := kind :: tag :: leBytes 2 payload.length ++ payload
  syncByte :: body ++ leBytes 2 (crc16 body).toNat

/-- A notice's kind (the kind-code table). -/
def noticeKind : Notice → Byte
  | .paramChanged _ => 0xC0 | .panelKey _ _ _ => 0xC1 | .panelKnob _ _ => 0xC2 | .panelMode _ => 0xC3
  | .runState _ _ _ => 0xC4 | .acqDone _ _ _ _ => 0xC5 | .segmentsReady _ _ => 0xC6 | .damaged _ _ _ => 0xC7
  | .maskFail _ _ _ _ _ => 0xC8 | .panelRecall _ _ _ => 0xC9 | .linkFault _ _ _ _ => 0xCA

/-- A notice's payload (R19, R90 to R93, R144, R175, R197; 02, Notices). -/
def noticePayload : Notice → List Byte
  | .paramChanged ids => BitVec.ofNat 8 ids.length :: ids.map (BitVec.ofNat 8)
  | .panelKey key press mode =>
    [BitVec.ofNat 8 key, boolByte press, BitVec.ofNat 8 (panelModeCode mode)]
  | .panelKnob knob steps => BitVec.ofNat 8 knob :: leInt 2 steps
  | .panelMode mode => [BitVec.ofNat 8 (panelModeCode mode)]
  | .runState st capNo finished =>
    BitVec.ofNat 8 (runStateCode st) :: leBytes 4 capNo.toNat ++ leBytes 2 finished
  | .acqDone capNo endedBy finished damaged =>
    leBytes 4 capNo.toNat ++ leBytes 1 endedBy ++ leBytes 2 finished ++ leBytes 2 damaged
  | .segmentsReady k capNo => leBytes 2 k ++ leBytes 4 capNo.toNat
  | .damaged serial index channels =>
    leBytes 4 serial.toNat ++ leBytes 2 index ++ [channelFlags channels]
  | .maskFail serial channel zones first action =>
    leBytes 4 serial.toNat ++ leBytes 1 channel ++ leBytes 1 zones ++ leBytes 1 first ++ leBytes 1 action
  | .panelRecall slot result clamps => leBytes 1 slot ++ leBytes 1 result ++ leBytes 1 clamps
  | .linkFault length crc timeout unanswered =>
    leBytes 2 length ++ leBytes 2 crc ++ leBytes 2 timeout ++ leBytes 2 unanswered

/-! ## Sending (R201) -/

/-- The outbound framer's choice: the head reply, else the head notice, else Idle (R201). -/
def chooseFrame (l : Link) : Link :=
  match l.replies, l.notices with
  | r :: rest, _ =>
    { l with replies := rest, sending := some ⟨frameBytes r.kind r.tag r.payload, 0, r.origin⟩ }
  | [], n :: rest =>
    { l with notices := rest, sending := some ⟨frameBytes (noticeKind n) 0 (noticePayload n), 0, .notice⟩ }
  | [], [] => { l with sending := none }

/-- The last byte of a reply to an accepted request closes the request (R199). -/
def closeRequest (o : ReplyOrigin) (l : Link) : Link :=
  match o with
  | .accepted | .resetDone => { l with openCount := l.openCount - 1 }
  | .linkRefusal | .notice => l

/-- One byte sent of the frame being sent; at its last byte the framer chooses again (R201). -/
def sendNext (l : Link) : Link :=
  match l.sending with
  | none => { l with outByte := 0 }
  | some f =>
    let l := { l with outByte := f.frame.getD f.pos 0 }
    if f.pos + 1 < f.frame.length then { l with sending := some { f with pos := f.pos + 1 } }
    else chooseFrame (closeRequest f.origin l)

/-- A framer that is Idle chooses before it sends (R201). -/
def chooseIfIdle (l : Link) : Link := if l.sending.isNone then chooseFrame l else l

/-- The byte this clock sends ends the Reset's Done (R205). -/
def endsReset (l : Link) : Bool :=
  match (chooseIfIdle l).sending with
  | some f => f.origin == .resetDone && decide (f.frame.length ≤ f.pos + 1)
  | none => false

/-! ## Link faults (R196 to R198) -/

/-- The link fault kinds. -/
inductive LinkFaultKind where
  | length | crc | timeout | unanswered
  deriving DecidableEq, Repr

/-- A link fault counted, and LinkFault offered (R196, R197). -/
def countFault (k : LinkFaultKind) (s : State) : State :=
  match k with
  | .length =>
    offer (.linkFault 1 0 0 0) (setLink { s.link with lengthFaults := satSucc top32 s.link.lengthFaults } s)
  | .crc => offer (.linkFault 0 1 0 0) (setLink { s.link with crcFaults := satSucc top32 s.link.crcFaults } s)
  | .timeout =>
    offer (.linkFault 0 0 1 0) (setLink { s.link with timeoutFaults := satSucc top32 s.link.timeoutFaults } s)
  | .unanswered =>
    offer (.linkFault 0 0 0 1) (setLink { s.link with unanswered := satSucc top32 s.link.unanswered } s)

/-- The assembler returns to Hunting; its frame timer stops. -/
def hunt (s : State) : State := setLink { s.link with asm := none } s

/-! ## Acceptance and hand-over (R198, R199) -/

/-- The next hand-over begins when none is in progress and no reset is pending (R199). -/
def beginHandover (l : Link) : Link :=
  match l.handover, l.resetPending, l.requests with
  | none, false, r :: rest => { l with handover := some r, requests := rest }
  | _, _, _ => l

/-- The places of the reply queue for the link's own refusals (R198). -/
def refusalPlaces : Nat := 4

/-- The link refuses a frame, or leaves it unanswered when its refusal places are taken (R198). -/
def refuseFrame (r : Request) (reason : Reason) (s : State) : State :=
  if (s.link.replies.filter fun p => p.origin == .linkRefusal).length < refusalPlaces then
    pushReply { kind := kindRefused, tag := r.tag, payload := refusedPayload reason r.kind .none
                origin := .linkRefusal } s
  else countFault .unanswered s

/-- The places of the request queue, and the most open requests (R198, R199). -/
def requestPlaces : Nat := 8
def maxOpen : Nat := 16

/-- A good frame judged (R198). -/
def acceptFrame (r : Request) (s : State) : State :=
  match lengthAllowed r.kind r.payload with
  | none => refuseFrame r .unknownKind s
  | some false => refuseFrame r .badLength s
  | some true =>
    if s.link.requests.length < requestPlaces ∧ s.link.openCount < maxOpen then
      setLink (beginHandover { s.link with
        requests := s.link.requests ++ [r], openCount := s.link.openCount + 1 }) s
    else refuseFrame r .queueFull s

/-! ## The assembler (R195, R196) -/

/-- Ticks of the frame timer: 10 ms (R195). -/
def frameTicks : Nat := 10 * ticksPerMs

/-- The request in the bytes of a frame after its sync. -/
def requestOf (bytes : List Byte) : Request :=
  { kind := bytes.getD 0 0, tag := bytes.getD 1 0, payload := slice bytes 4 (fieldAt bytes 2 2) }

/-- The CRC of the bytes of a whole frame after its sync matches (R195). -/
def crcMatches (bytes : List Byte) : Bool :=
  let n := 4 + fieldAt bytes 2 2
  (crc16 (bytes.take n)).toNat == fieldAt bytes n 2

/-- The assembler with one more byte of its frame (R195, R196). -/
def assemble (a : Assembly) (b : Byte) (s : State) : State :=
  let bytes := a.bytes ++ [b]
  if bytes.length = 4 ∧ maxPayload < fieldAt bytes 2 2 then countFault .length (hunt s)
  else if 4 < bytes.length ∧ bytes.length = 6 + fieldAt bytes 2 2 then
    if crcMatches bytes then acceptFrame (requestOf bytes) (hunt s) else countFault .crc (hunt s)
  else setLink { s.link with asm := some { a with bytes := bytes } } s

/-- The assembler takes a byte (R195). -/
def takeByte (b : Byte) (s : State) : State :=
  match s.link.asm with
  | some a => assemble a b s
  | none =>
    if b = syncByte then
      setLink { s.link with
        asm := some { bytes := [], due := s.trig.timestamp + BitVec.ofNat 64 frameTicks } } s
    else s

/-- One byte clocked: one goes out, one comes in, and the soft reset takes place when the one that went out ends
the Reset's Done (R195, R201, R205; the order within the clock: log 19). -/
def clockByte (b : Byte) (s : State) : State :=
  let s' := takeByte b (setLink (sendNext (chooseIfIdle s.link)) s)
  if endsReset s.link then softReset s' else s'

/-- The frame timer expires (R196). -/
def frameTimeout (s : State) : State :=
  match s.link.asm with
  | some a => if tickReached s a.due then countFault .timeout (hunt s) else s
  | none => s

/-! ## Dispatch (R199) -/

/-- The dispatch event of the request in hand-over, when it is of a kind: its owner takes it, and the next
hand-over begins (R199). -/
def dispatch (kind : Byte) (serve : Request → State → State) (s : State) : State :=
  match s.link.handover with
  | some r =>
    if r.kind = kind then
      let s := serve r (setLink { s.link with handover := none } s)
      setLink (beginHandover s.link) s
    else s
  | none => s

/-! ## The link's own requests (R203 to R205) -/

/-- Echo (R203). -/
def serveEcho (r : Request) (s : State) : State := replyDone r.tag r.payload s

/-- The sum of the knobs' encoder fault counts (R204). -/
def encoderFaults (s : State) : Nat := (s.panel.knobs.map (·.faults)).sum

/-- The 52 bytes of a GetStatus reply (R204). -/
def statusPayload (s : State) : List Byte :=
  [BitVec.ofNat 8 (runStateCode s.cap.runState), BitVec.ofNat 8 (panelModeCode s.panel.mode)] ++
    leBytes 4 s.cap.capNo.toNat ++ leBytes 4 s.cap.serial.toNat ++
    [statusFlags s, BitVec.ofNat 8 (flagBits s.ras.overRange)] ++
    leBytes 4 s.link.lengthFaults ++ leBytes 4 s.link.crcFaults ++ leBytes 4 s.link.timeoutFaults ++
    leBytes 4 s.link.unanswered ++ leBytes 4 s.link.noticesLost ++ leBytes 4 s.cap.damagedCount ++
    leBytes 4 s.scan.lateLines ++ leBytes 4 s.mask.tested ++ leBytes 4 s.mask.failed ++
    leBytes 4 (encoderFaults s)

/-- GetStatus (R204). -/
def serveGetStatus (r : Request) (s : State) : State := replyDone r.tag (statusPayload s) s

/-- Reset (R205). -/
def serveReset (r : Request) (s : State) : State :=
  let s := pushReply { kind := kindDone, tag := r.tag, payload := [], origin := .resetDone } s
  setLink { s.link with resetPending := true } s

end Sys2Proof.Machine
end

