-- ==== Sys2Proof/Machine/Commands.lean ====
section
/-! DEFINITION. The forms a command's meaning takes: an effect on a powered part, and the dispatch of a request (R199; log 4, log
9). -/

namespace Sys2Proof.Machine

/-- A command that has an effect on a part with power, and none without (log 4). -/
def command (f : State → State) (s : State) : Host.Outcome State Fault Refusal := .next (ifPowered f s)

/-- A command that is the dispatch event of the requests of a kind (R199). -/
def dispatchCommand (kind : Byte) (serve : Request → State → State) (s : State) :
    Host.Outcome State Fault Refusal := command (dispatch kind serve) s

/-- A dispatch command whose owner may place DRAM requests in the same event (R98). -/
def dispatchAndPlace (kind : Byte) (serve : Request → State → State) (s : State) :
    Host.Outcome State Fault Refusal := command (fun s => placeRequests (dispatch kind serve s)) s

end Sys2Proof.Machine
end

