-- ==== Sys2Proof/Machine/CaptureCommands.lean ====
section
/-! DEFINITION. The commands of the capture controller and the trigger engine, and ClearPersist. -/

namespace Sys2Proof.Machine

/-- FORCE_TRIGGER (R63). -/
def execForceTrigger (s : State) : Host.Outcome State Fault Refusal :=
  dispatchCommand 0x18 serveForceTrigger s

/-- RUN (R83). -/
def execRun (s : State) : Host.Outcome State Fault Refusal :=
  dispatchCommand 0x19 (reachCapture serveRun) s

/-- STOP (R84). -/
def execStop (s : State) : Host.Outcome State Fault Refusal :=
  dispatchCommand 0x1A (reachCapture serveStop) s

/-- SINGLE (R85). -/
def execSingle (s : State) : Host.Outcome State Fault Refusal :=
  dispatchCommand 0x1B (reachCapture serveSingle) s

/-- SET_WATERMARK (R93). -/
def execSetWatermark (s : State) : Host.Outcome State Fault Refusal :=
  dispatchCommand 0x1C (reachCapture serveSetWatermark) s

/-- SET_INPUT (R72). -/
def execSetInput (s : State) : Host.Outcome State Fault Refusal :=
  dispatchCommand 0x1D (reachCapture serveSetInput) s

/-- CLEAR_PERSIST (R135). -/
def execClearPersist (s : State) : Host.Outcome State Fault Refusal :=
  dispatchCommand 0x1E serveClearPersist s

/-- RUN_STOP_TOGGLE (R29). -/
def execRunStopToggle (s : State) : Host.Outcome State Fault Refusal :=
  command (takeCaptureKey .runStop toggleRun) s

/-- KEY_SINGLE (R29, R85). -/
def execKeySingle (s : State) : Host.Outcome State Fault Refusal :=
  command (takeCaptureKey .single captureSingle) s

/-- KEY_FORCE_TRIGGER (R29, R63). -/
def execKeyForceTrigger (s : State) : Host.Outcome State Fault Refusal := command takeKeyForce s

/-- KEY_CLEAR_PERSIST (R29, R135). -/
def execKeyClearPersist (s : State) : Host.Outcome State Fault Refusal := command takeKeyClear s

/-- The stream the trigger engine samples: the ADC port and the EXT input, or the pattern with EXT low (R51,
R71). -/
def sourceStream (s : State) (adc : List Nat) (ext : Bool) : List Nat × Bool :=
  match s.cap.input with
  | .adc => (adc, ext)
  | .pattern => (patternCodes s.trig.timestamp, false)

/-- The engine before a sample: under the Pattern input the EXT level stays low, so that EXT gives no fire (R56). -/
def beforeSample (s : State) : Trigger :=
  match s.cap.input with
  | .adc => s.trig
  | .pattern => { s.trig with extLevel := false }

/-- A trigger fire taken to acceptance (R58). -/
def fireTrigger (fire : Bool) (s : State) : State :=
  if fire ∧ s.trig.arm = .armed ∧ s.trig.holdoff = none then acceptTrigger true s else s

/-- One full-rate tick: the timestamp, the engine's sample, then the capture controller's codes (R50, R51, R58,
R69). -/
def fullRateTick (adc : List Nat) (ext : Bool) (s : State) : State :=
  let s : State := { s with
    trig := { s.trig with timestamp := s.trig.timestamp + 1 }, pins := { s.pins with ext := ext } }
  let stream := sourceStream s adc ext
  let r := sampleEngine stream.1 stream.2 (beforeSample s)
  captureTick adc (fireTrigger r.2 { s with trig := r.1 })

/-- TICK (R50 to R58, R69 to R79). -/
def execTick (code1 code2 code3 code4 : Byte) (ext : Bool) (s : State) : Host.Outcome State Fault Refusal :=
  command (fullRateTick [code1.toNat, code2.toNat, code3.toNat, code4.toNat] ext) s

/-- The holdoff timer expires, before or after the sample of its tick (R58, R60). -/
def holdoffExpiry (s : State) : State :=
  if timerMeets s s.trig.holdoff then { s with trig := { s.trig with holdoff := none } } else s

/-- HOLDOFF_EXPIRY (R60). -/
def execHoldoffExpiry (s : State) : Host.Outcome State Fault Refusal := command holdoffExpiry s

/-- The auto timer expires and forces a trigger, before or after the sample of its tick (R62). -/
def autoExpiry (s : State) : State :=
  if timerMeets s s.trig.auto then forceAccept { s with trig := { s.trig with auto := none } } else s

/-- AUTO_TIMER_EXPIRY (R62). -/
def execAutoTimerExpiry (s : State) : Host.Outcome State Fault Refusal := command autoExpiry s

end Sys2Proof.Machine
end

