-- ==== Sys2Proof/Machine/DisplayCommands.lean ====
section
/-! DEFINITION. The commands of scan-out and the mask checker's test. -/

namespace Sys2Proof.Machine

/-- WRITE_OVERLAY (R156, R157). -/
def execWriteOverlay (s : State) : Host.Outcome State Fault Refusal :=
  dispatchAndPlace 0x24 serveWriteOverlay s

/-- FILL_OVERLAY (R156, R158). -/
def execFillOverlay (s : State) : Host.Outcome State Fault Refusal :=
  dispatchAndPlace 0x25 serveFillOverlay s

/-- WRITE_PALETTE (R155). -/
def execWritePalette (s : State) : Host.Outcome State Fault Refusal :=
  dispatchCommand 0x26 serveWritePalette s

/-- SET_WAVE_AREA (R159). -/
def execSetWaveArea (s : State) : Host.Outcome State Fault Refusal :=
  dispatchCommand 0x27 serveSetWaveArea s

/-- LINE_START (R109, R110, R148 to R153, R160). -/
def execLineStart (s : State) : Host.Outcome State Fault Refusal := command (fun s => placeRequests (nextLine s)) s

/-- MASK_TEST (R141 to R145). -/
def execMaskTest (s : State) : Host.Outcome State Fault Refusal := command (fun s => placeRequests (takeExtents s)) s

end Sys2Proof.Machine
end

