-- ==== Sys2Proof/Machine/LinkCommands.lean ====
section
/-! DEFINITION. The link's commands and power: HOST_CLOCKED_BYTE, FRAME_TIMEOUT, ECHO, GET_STATUS, RESET, POWER_ON, POWER_LOSS. -/

namespace Sys2Proof.Machine

/-- POWER_ON (R24, and the power-on rule of each block). -/
def execPowerOn (s : State) : Host.Outcome State Fault Refusal := .next (applyPower s)

/-- POWER_LOSS (R169, R185). -/
def execPowerLoss (s : State) : Host.Outcome State Fault Refusal := command losePower s

/-- HOST_CLOCKED_BYTE (R195 to R198, R201, R205). -/
def execHostClockedByte (byte : Byte) (s : State) : Host.Outcome State Fault Refusal :=
  command (clockByte byte) s

/-- FRAME_TIMEOUT (R196). -/
def execFrameTimeout (s : State) : Host.Outcome State Fault Refusal := command frameTimeout s

/-- ECHO (R203). -/
def execEcho (s : State) : Host.Outcome State Fault Refusal :=
  dispatchCommand 0x01 serveEcho s

/-- GET_STATUS (R204). -/
def execGetStatus (s : State) : Host.Outcome State Fault Refusal :=
  dispatchCommand 0x02 serveGetStatus s

/-- RESET (R205). -/
def execReset (s : State) : Host.Outcome State Fault Refusal :=
  dispatchCommand 0x03 serveReset s

end Sys2Proof.Machine
end

