-- ==== Sys2Proof/Machine/MemoryCommands.lean ====
section
/-! DEFINITION. The commands of the memory scheduler and the readout unit. -/

namespace Sys2Proof.Machine

/-- GET_SEGMENTS (R186). -/
def execGetSegments (s : State) : Host.Outcome State Fault Refusal :=
  dispatchCommand 0x34 serveGetSegments s

/-- READ_WAVE (R187 to R190). -/
def execReadWave (s : State) : Host.Outcome State Fault Refusal :=
  dispatchAndPlace 0x35 serveReadWave s

/-- MEMORY_SLOT (R98 to R105, R107). -/
def execMemorySlot (s : State) : Host.Outcome State Fault Refusal := if s.powered then memorySlot s else .next s

/-- REFRESH_INTERVAL_EXPIRY (R106). -/
def execRefreshIntervalExpiry (s : State) : Host.Outcome State Fault Refusal := command refreshInterval s

/-- REFRESH_COMPLETION (R108, R112). -/
def execRefreshCompletion (s : State) : Host.Outcome State Fault Refusal := command endRefresh s

end Sys2Proof.Machine
end

