-- ==== Sys2Proof/Machine/PanelCommands.lean ====
section
/-! DEFINITION. The panel's requests, its scans and its timers. -/

namespace Sys2Proof.Machine

/-- SET_PANEL_MODE (R42). -/
def execSetPanelMode (s : State) : Host.Outcome State Fault Refusal :=
  dispatchCommand 0x10 serveSetPanelMode s

/-- SET_KEY_BINDING (R43). -/
def execSetKeyBinding (s : State) : Host.Outcome State Fault Refusal :=
  dispatchCommand 0x11 serveSetKeyBinding s

/-- SET_KNOB_BINDING (R44). -/
def execSetKnobBinding (s : State) : Host.Outcome State Fault Refusal :=
  dispatchCommand 0x12 serveSetKnobBinding s

/-- SET_KNOB_SHAPE (R45). -/
def execSetKnobShape (s : State) : Host.Outcome State Fault Refusal :=
  dispatchCommand 0x13 serveSetKnobShape s

/-- SET_LAMP_BINDING (R46). -/
def execSetLampBinding (s : State) : Host.Outcome State Fault Refusal :=
  dispatchCommand 0x14 serveSetLampBinding s

/-- SET_LAMP (R47). -/
def execSetLamp (s : State) : Host.Outcome State Fault Refusal :=
  dispatchCommand 0x15 serveSetLamp s

/-- GET_PANEL (R48). -/
def execGetPanel (s : State) : Host.Outcome State Fault Refusal :=
  dispatchCommand 0x16 serveGetPanel s

/-- One scan of the key matrix, once the panel scans (R26). -/
def scanPanel (down : BitVec 64) (s : State) : State :=
  if s.panel.scanning then
    setPanel { s.panel with keys := scanKeys (timerFor s debounceTicks) down s.panel.keys } s
  else s

/-- KEY_SCAN (R26). -/
def execKeyScan (down : BitVec 64) (s : State) : Host.Outcome State Fault Refusal := command (scanPanel down) s

/-- DEBOUNCE_EXPIRY (R27, R28). -/
def execDebounceExpiry (key : Nat) (s : State) : Host.Outcome State Fault Refusal := command (debounceKey key) s

/-- The line pair of a knob changes, and the panel decodes the change once it scans (R26, R31). -/
def knobLines (knob : Nat) (lines : BitVec 2) (s : State) : State :=
  let s := drivePin knob lines s
  if s.powered && s.panel.scanning then decodeKnob knob lines s else s

/-- KNOB_LINE_CHANGE (R31 to R35). -/
def execKnobLineChange (knob : Nat) (lines : BitVec 2) (s : State) : Host.Outcome State Fault Refusal :=
  .next (knobLines knob lines s)

/-- QUICK_TIMER_EXPIRY (R33). -/
def execQuickTimerExpiry (knob : Nat) (s : State) : Host.Outcome State Fault Refusal :=
  command (quickExpiry knob) s

/-- The Triggered pulse timer expires (R41). -/
def pulseExpiry (s : State) : State :=
  if timerDue s s.panel.triggered then setPanel { s.panel with triggered := none } s else s

/-- TRIGGERED_PULSE_EXPIRY (R41). -/
def execTriggeredPulseExpiry (s : State) : Host.Outcome State Fault Refusal := command pulseExpiry s

end Sys2Proof.Machine
end

