-- ==== Sys2Proof/Machine/SetupCommands.lean ====
section
/-! DEFINITION. The commands of the live setup and of the mask section. -/

namespace Sys2Proof.Machine

/-- SET_PARAMS (R20, R21). -/
def execSetParams (s : State) : Host.Outcome State Fault Refusal :=
  dispatchCommand 0x08 (reachSetup serveSetParams) s

/-- GET_PARAMS (R22). -/
def execGetParams (s : State) : Host.Outcome State Fault Refusal :=
  dispatchCommand 0x09 (reachSetup serveGetParams) s

/-- WRITE_MASK (R138). -/
def execWriteMask (s : State) : Host.Outcome State Fault Refusal :=
  dispatchCommand 0x20 reachWriteMask s

/-- CLEAR_MASK (R139). -/
def execClearMask (s : State) : Host.Outcome State Fault Refusal :=
  dispatchCommand 0x21 (reachSetup serveClearMask) s

/-- READ_MASK (R140). -/
def execReadMask (s : State) : Host.Outcome State Fault Refusal :=
  dispatchCommand 0x22 (reachSetup serveReadMask) s

/-- CLEAR_MASK_COUNTS (R146). -/
def execClearMaskCounts (s : State) : Host.Outcome State Fault Refusal :=
  dispatchCommand 0x23 serveClearMaskCounts s

/-- PANEL_CHANGE_SET (R30, R34). -/
def execPanelChangeSet (s : State) : Host.Outcome State Fault Refusal := command takePanelSet s

/-- The settle timer expires, and a segment in Holding may leave it (R14, R77). -/
def settleExpiry (s : State) : State :=
  if timerDue s s.setup.settle then leaveHolding { s with setup := { s.setup with settle := none } } else s

/-- SETTLE_TIMER_EXPIRY (R14). -/
def execSettleTimerExpiry (s : State) : Host.Outcome State Fault Refusal := command settleExpiry s

end Sys2Proof.Machine
end

