-- ==== Sys2Proof/Machine/StoreCommands.lean ====
section
/-! DEFINITION. The setup store's requests, and the events of its NV area. -/

namespace Sys2Proof.Machine

/-- SAVE (R173). -/
def execSave (s : State) : Host.Outcome State Fault Refusal :=
  dispatchCommand 0x28 serveSave s

/-- RECALL (R174). -/
def execRecall (s : State) : Host.Outcome State Fault Refusal :=
  dispatchCommand 0x29 serveRecall s

/-- DELETE (R176). -/
def execDelete (s : State) : Host.Outcome State Fault Refusal :=
  dispatchCommand 0x2A serveDelete s

/-- PROTECT (R177). -/
def execProtect (s : State) : Host.Outcome State Fault Refusal :=
  dispatchCommand 0x2B serveProtect s

/-- LIST_SLOTS (R178). -/
def execListSlots (s : State) : Host.Outcome State Fault Refusal :=
  dispatchCommand 0x2C serveListSlots s

/-- EXPORT_SLOT (R179). -/
def execExportSlot (s : State) : Host.Outcome State Fault Refusal :=
  dispatchCommand 0x2D serveExportSlot s

/-- IMPORT_SLOT (R180). -/
def execImportSlot (s : State) : Host.Outcome State Fault Refusal :=
  dispatchCommand 0x2E serveImportSlot s

/-- SET_POWER_ON (R181). -/
def execSetPowerOn (s : State) : Host.Outcome State Fault Refusal :=
  dispatchCommand 0x2F serveSetPowerOn s

/-- HOLD (R182). -/
def execHold (s : State) : Host.Outcome State Fault Refusal :=
  dispatchCommand 0x30 serveHold s

/-- RELEASE (R183). -/
def execRelease (s : State) : Host.Outcome State Fault Refusal :=
  dispatchCommand 0x31 serveRelease s

/-- PROGRAM_COMPLETION (R169, R170). -/
def execProgramCompletion (s : State) : Host.Outcome State Fault Refusal := command programDone s

/-- ERASE_COMPLETION (R168, R170). -/
def execEraseCompletion (s : State) : Host.Outcome State Fault Refusal := command eraseDone s

/-- REBUILD_DONE (R24, R167, R168). -/
def execRebuildDone (s : State) : Host.Outcome State Fault Refusal := command finishRebuild s

/-- RECALL_CHANGE_SET (R23, R174). -/
def execRecallChangeSet (s : State) : Host.Outcome State Fault Refusal := command takeRecallSet s

/-- PANEL_RECALL (R29, R172). -/
def execPanelRecall (s : State) : Host.Outcome State Fault Refusal := command takePanelRecall s

end Sys2Proof.Machine
end

