-- ==== Sys2Proof/Machine/Dispatch.lean ====
section
/-! DEFINITION. exec: one arm per command, each one direct call of its meaning. -/

namespace Sys2Proof.Machine

def exec (i : Instr) (s : State) : Host.Outcome State Fault Refusal :=
  match i with
  | .powerOn => Sys2Proof.Machine.execPowerOn s
  | .hostClockedByte byte => Sys2Proof.Machine.execHostClockedByte byte s
  | .frameTimeout => Sys2Proof.Machine.execFrameTimeout s
  | .echo => Sys2Proof.Machine.execEcho s
  | .getStatus => Sys2Proof.Machine.execGetStatus s
  | .reset => Sys2Proof.Machine.execReset s
  | .setParams => Sys2Proof.Machine.execSetParams s
  | .getParams => Sys2Proof.Machine.execGetParams s
  | .setPanelMode => Sys2Proof.Machine.execSetPanelMode s
  | .setKeyBinding => Sys2Proof.Machine.execSetKeyBinding s
  | .setKnobBinding => Sys2Proof.Machine.execSetKnobBinding s
  | .setKnobShape => Sys2Proof.Machine.execSetKnobShape s
  | .setLampBinding => Sys2Proof.Machine.execSetLampBinding s
  | .setLamp => Sys2Proof.Machine.execSetLamp s
  | .getPanel => Sys2Proof.Machine.execGetPanel s
  | .forceTrigger => Sys2Proof.Machine.execForceTrigger s
  | .run => Sys2Proof.Machine.execRun s
  | .stop => Sys2Proof.Machine.execStop s
  | .single => Sys2Proof.Machine.execSingle s
  | .setWatermark => Sys2Proof.Machine.execSetWatermark s
  | .setInput => Sys2Proof.Machine.execSetInput s
  | .clearPersist => Sys2Proof.Machine.execClearPersist s
  | .writeMask => Sys2Proof.Machine.execWriteMask s
  | .clearMask => Sys2Proof.Machine.execClearMask s
  | .readMask => Sys2Proof.Machine.execReadMask s
  | .clearMaskCounts => Sys2Proof.Machine.execClearMaskCounts s
  | .writeOverlay => Sys2Proof.Machine.execWriteOverlay s
  | .fillOverlay => Sys2Proof.Machine.execFillOverlay s
  | .writePalette => Sys2Proof.Machine.execWritePalette s
  | .setWaveArea => Sys2Proof.Machine.execSetWaveArea s
  | .save => Sys2Proof.Machine.execSave s
  | .recall => Sys2Proof.Machine.execRecall s
  | .delete => Sys2Proof.Machine.execDelete s
  | .protect => Sys2Proof.Machine.execProtect s
  | .listSlots => Sys2Proof.Machine.execListSlots s
  | .exportSlot => Sys2Proof.Machine.execExportSlot s
  | .importSlot => Sys2Proof.Machine.execImportSlot s
  | .setPowerOn => Sys2Proof.Machine.execSetPowerOn s
  | .hold => Sys2Proof.Machine.execHold s
  | .release => Sys2Proof.Machine.execRelease s
  | .getSegments => Sys2Proof.Machine.execGetSegments s
  | .readWave => Sys2Proof.Machine.execReadWave s
  | .programCompletion => Sys2Proof.Machine.execProgramCompletion s
  | .eraseCompletion => Sys2Proof.Machine.execEraseCompletion s
  | .rebuildDone => Sys2Proof.Machine.execRebuildDone s
  | .recallChangeSet => Sys2Proof.Machine.execRecallChangeSet s
  | .panelRecall => Sys2Proof.Machine.execPanelRecall s
  | .panelChangeSet => Sys2Proof.Machine.execPanelChangeSet s
  | .runStopToggle => Sys2Proof.Machine.execRunStopToggle s
  | .keySingle => Sys2Proof.Machine.execKeySingle s
  | .keyForceTrigger => Sys2Proof.Machine.execKeyForceTrigger s
  | .keyClearPersist => Sys2Proof.Machine.execKeyClearPersist s
  | .keyScan down => Sys2Proof.Machine.execKeyScan down s
  | .debounceExpiry key => Sys2Proof.Machine.execDebounceExpiry key s
  | .knobLineChange knob lines => Sys2Proof.Machine.execKnobLineChange knob lines s
  | .quickTimerExpiry knob => Sys2Proof.Machine.execQuickTimerExpiry knob s
  | .triggeredPulseExpiry => Sys2Proof.Machine.execTriggeredPulseExpiry s
  | .tick code1 code2 code3 code4 ext => Sys2Proof.Machine.execTick code1 code2 code3 code4 ext s
  | .holdoffExpiry => Sys2Proof.Machine.execHoldoffExpiry s
  | .autoTimerExpiry => Sys2Proof.Machine.execAutoTimerExpiry s
  | .settleTimerExpiry => Sys2Proof.Machine.execSettleTimerExpiry s
  | .memorySlot => Sys2Proof.Machine.execMemorySlot s
  | .maskTest => Sys2Proof.Machine.execMaskTest s
  | .refreshIntervalExpiry => Sys2Proof.Machine.execRefreshIntervalExpiry s
  | .refreshCompletion => Sys2Proof.Machine.execRefreshCompletion s
  | .lineStart => Sys2Proof.Machine.execLineStart s
  | .powerLoss => Sys2Proof.Machine.execPowerLoss s

end Sys2Proof.Machine
end

