-- ==== Sys2Proof/Machine/Step.lean ====
section
/-! DEFINITION. step: the command at the front of the queue is run; with an empty queue the part idles (log 1). -/

namespace Sys2Proof.Machine

/-- One step: the command at the front of the queue runs over the state with the queue's rest. On an empty queue
the part idles: time comes as TICK, MEMORY_SLOT and the expiry commands (log 1, log 10). -/
def step (s : State) : Host.Outcome State Fault Refusal :=
  match s.pending with
  | [] => .next s
  | c :: rest => exec c { s with pending := rest }

/-- The command that a word spells put at the front of the queue. No word spells one, since no row of the table has
bits. -/
def State.withFetchWord (s : State) (nbits w : Nat) : State :=
  match decodeTableWord nbits w with
  | some c => { s with pending := c :: s.pending }
  | none => s

end Sys2Proof.Machine
end

