-- ==== Sys2Proof/Safety.lean ====
section
/-! DEFINITION. The terms in which claims are made: a request in hand-over and its answer, frames clocked in, and the conditions
that every step keeps. -/

namespace Sys2Proof.Machine

/-! ## A request and its answer (R199, R200) -/

/-- The part has power, and a request of a kind is in hand-over. -/
abbrev InHandover (kind : Byte) (r : Request) (s : State) : Prop :=
  s.powered = true ∧ s.link.handover = some r ∧ r.kind = kind

/-- The link once the request in hand-over has been dispatched: the next hand-over has begun, unless a reset is
pending or no request waits (R199). -/
def afterDispatch (l : Link) : Link :=
  match l.resetPending, l.requests with
  | false, q :: rest => { l with handover := some q, requests := rest }
  | _, _ => { l with handover := none }

/-- The Done reply to a request (R200). -/
def doneReply (r : Request) (payload : List Byte) : Reply := ⟨0x80, r.tag, payload, .accepted⟩

/-- The Refused reply to a request, with its reason code and the three detail bytes (R200). -/
def refusedReply (r : Request) (code : Nat) (detail : List Byte) : Reply :=
  ⟨0x81, r.tag, BitVec.ofNat 8 code :: r.kind :: detail, .accepted⟩

/-- The state once the request in hand-over has been dispatched and answered, with nothing else changed. -/
def answered (s : State) (rep : Reply) : State :=
  { s with link := afterDispatch { s.link with replies := s.link.replies ++ [rep] } }

/-- Bytes clocked in one after another (R195). -/
def clockIn : List Byte → State → Host.Outcome State Fault Refusal
  | [], s => .next s
  | b :: bs, s =>
    match exec (.hostClockedByte b) s with
    | .next t => clockIn bs t
    | .fault f => .fault f
    | .refused r => .refused r

/-! ## Payloads and their values -/

/-- The payload of a SetParams for some pairs (R20). -/
def setParamsBytes (ps : List (Nat × Int)) : List Byte :=
  BitVec.ofNat 8 ps.length :: ps.flatMap fun p => BitVec.ofNat 8 p.1 :: leInt 4 p.2

/-- A value that four bytes can carry. -/
abbrev Int32 (v : Int) : Prop := -2147483648 ≤ v ∧ v < 2147483648

/-- An absolute pair that validation lets pass: its id is in the catalogue, and its value is one of the parameter's
when it is an Enum (R5). -/
abbrev PairValid (p : Nat × Int) : Prop :=
  ∃ i ∈ catalogue, i.id = p.1 ∧ (i.kind = .enum → i.lo ≤ p.2 ∧ p.2 ≤ i.hi)

/-- Bounds of a zone as written that the zone check lets pass (R137). -/
abbrev BoundsValid (z : Nat × Nat) : Prop := z = (0xFFFF, 0xFFFF) ∨ z.1 ≤ z.2 ∧ z.2 ≤ 399

/-- A mask section is absent, or has 200 zones, each unbounded or with a top and a bottom row of the grid (R2). -/
def MaskValid (m : Option (List Zone)) : Prop :=
  ∀ zones, m = some zones → zones.length = 200 ∧ ∀ t b, Zone.bounded t b ∈ zones → t ≤ b ∧ b ≤ 399

/-- DISP.HPOS as a clamped set leaves it, when `v` is asked for and `vals` are the values the set leaves (R6, R7). -/
def hposAllowed (displayed : Option Nat) (vals : List Int) (v : Int) : Int :=
  min (clampParam idHpos v)
    (hposLimit (displayed.getD (valuesLength vals)) (getParam vals idZoom).toNat)

/-! ## What both resets leave -/

/-- The panel as both resets leave it, with knob lines that read `lines` (R49; 02, the default bindings; nothing is waiting
for another block, log 13). -/
def PanelAtDefaults (lines : List (BitVec 2)) (p : Panel) : Prop :=
  p.mode = .localMode ∧ p.triggered = none ∧
    p.keys.map (·.action) = ([.runStop, .single, .forceTrigger, .defaultSetup, .channelToggle 1, .channelToggle 2,
        .channelToggle 3, .channelToggle 4, .toLocal, .recall 4, .recall 5, .recall 6, .recall 7, .clearPersist] : List KeyAction) ++
      List.replicate 42 KeyAction.report ++
      ([.knobHome 0, .knobHome 1, .knobHome 2, .knobHome 3, .knobHome 4, .knobHome 5, .knobHome 6, .knobHome 7] : List KeyAction) ∧
    (∀ k ∈ p.keys, k.lastDown = false ∧ k.down = false ∧ k.debounce = none) ∧
    p.knobs = ((List.range 8).zip [some 0x50, some 0x51, some 0x63, some 0x75, some 0x11, some 0x12, some 0x74, none]).map
      (fun k => { lines := lines.getD k.1 0, count := 0, mult := 1, run := 0, clockwise := true, quick := none, faults := 0
                  target := k.2, resolution := 1, hold := 2, ramp := 2, maxMult := 10, quickMs := 60 }) ∧
    p.lamps.map (·.source) = ([.running, .stopped, .singlePending, .triggered, .channelOn 1, .channelOn 2, .channelOn 3,
        .channelOn 4, .remote, .maskFail, .storeBusy] : List LampSource) ++ List.replicate 21 LampSource.hostDriven ∧
    (∀ l ∈ p.lamps, l.host = false) ∧
    p.toSetup = [] ∧ p.toCapture = [] ∧ p.toTrigger = 0 ∧ p.toRaster = 0 ∧ p.toStore = []

/-- The trigger engine as both resets leave it, but for its counter (R66). -/
def TriggerAtReset (ext : Bool) (g : Trigger) : Prop :=
  g.arm = .idle ∧ g.settings = none ∧ g.risePrimed = false ∧ g.fallPrimed = false ∧ g.pulse = none ∧ g.extLevel = ext ∧
    g.holdoff = none ∧ g.auto = none ∧ g.pendingForce = false

/-- What the capture controller loses in both resets (R94, R95). -/
def CaptureAtReset (c : Capture) : Prop :=
  c.runState = .stopped ∧ c.desc = none ∧ c.table = [] ∧ c.cur = none ∧ c.assembly = [none, none, none, none] ∧
    c.gather = [] ∧ c.watermark = 0 ∧ c.failLatch = false ∧ c.maskStopMark = false ∧ c.settingsDiffer = false ∧
    c.input = .adc ∧ c.damagedCount = 0 ∧ c.waiting = []

/-- The rasterizer as both resets leave it, about to clear both sets (R136). -/
def RasterAtReset (r : Raster) : Prop :=
  r.state = .clearing ∧ r.drawQueue = [] ∧ r.pendingClear = false ∧ r.redraw = false ∧ r.pass = none ∧
    r.displayed = none ∧ r.overRange = [false, false, false, false] ∧ r.runView = .stopped ∧ r.stage = .clear 0 ∧
    r.reads = [] ∧ r.wanted = [] ∧ r.ready = [] ∧ r.outstanding = 0 ∧ r.toMask = none

/-- The link as both resets leave it, but for the byte that was clocked out last (R206). -/
def LinkAtReset (l : Link) : Prop :=
  l.asm = none ∧ l.requests = [] ∧ l.handover = none ∧ l.openCount = 0 ∧ l.replies = [] ∧ l.notices = [] ∧
    l.sending = none ∧ l.lengthFaults = 0 ∧ l.crcFaults = 0 ∧ l.timeoutFaults = 0 ∧ l.unanswered = 0 ∧
    l.noticesLost = 0 ∧ l.resetPending = false

/-- The colour of a palette index after power-on (R154). -/
def paletteDefault (i : Nat) : Colour :=
  if i < 2 then 0x000000#24
  else if i = 2 then 0x404040#24
  else if i < 16 then 0xFFFFFF#24
  else if i < 80 then
    let part := fun on : Bool => if on then 255 * (i % 16 + 1) / 16 else 0
    BitVec.ofNat 24 (part (i / 16 == 1 || i / 16 == 3) * 65536 + part (i / 16 != 3) * 256 +
      part (i / 16 == 2 || i / 16 == 3))
  else BitVec.ofNat 24 (i * 65536 + i * 256 + i)

/-! ## The trigger -/

/-- A sample is a rising fire (R54, R56): an edge of the external input, or a primed detector that the settings run finds a
code that has reached the level. `was` and `is` are the external input before and at the sample. -/
def risingFire (q : TrigSettings) (primed was is : Bool) (code : Int) : Bool :=
  if q.source = 4 then !was && is else (q.type == 1 || q.slope != 1) && primed && decide (q.level ≤ code)

/-- A sample is a falling fire (R54, R56). -/
def fallingFire (q : TrigSettings) (primed was is : Bool) (code : Int) : Bool :=
  if q.source = 4 then was && !is else (q.type == 1 || q.slope != 0) && primed && decide (code ≤ q.level)

/-- A rising or falling fire is a trigger fire (R55, R57): by the slope, or by the width of the pulse it closes. -/
def triggerFire (q : TrigSettings) (pulse : Option (Tick × Polarity)) (now : Tick) (rising falling : Bool) : Bool :=
  if q.type = 0 then rising && q.slope != 1 || falling && q.slope != 0
  else match pulse with
    | none => false
    | some (start, p) => (if p = .negative then rising else falling) &&
      (if q.widthCond = 0 then decide (((now - start).toNat : Int) < q.width)
       else decide (q.width < ((now - start).toNat : Int)))

/-- The pulse start after a fire (R57). -/
def pulseAfter (q : TrigSettings) (now : Tick) (rising falling : Bool) (pulse : Option (Tick × Polarity)) :
    Option (Tick × Polarity) :=
  if rising && q.slope != 1 then some (now, .positive)
  else if falling && q.slope != 0 then some (now, .negative)
  else pulse.filter fun x => if x.2 = .negative then !rising else !falling

/-- The engine after a sample of its source at the tick `now` (R54 to R57). -/
def engineAfter (q : TrigSettings) (now : Tick) (is rising falling : Bool) (code : Int) (g : Trigger) : Trigger :=
  { g with
    timestamp := now, extLevel := is
    risePrimed := q.source != 4 && (q.type == 1 || q.slope != 1) && !rising &&
      (g.risePrimed || decide (code ≤ max 0 (q.level - q.hyst)))
    fallPrimed := q.source != 4 && (q.type == 1 || q.slope != 0) && !falling &&
      (g.fallPrimed || decide (min 255 (q.level + q.hyst) ≤ code))
    pulse := if q.type = 0 then g.pulse else pulseAfter q now rising falling g.pulse }

/-! ## Captures -/

/-- The state once a trigger is accepted at the newest tick, for the segment `c` in Armed (R59, R74, R78). `written` says
that the trigger point is the last one written, as it can be for a forced trigger. -/
def accepted (fire written : Bool) (c : CurSegment) (d : Descriptor) (q : TrigSettings) (s : State) : State :=
  { s with
    trig := { s.trig with
      arm := .idle, auto := none
      holdoff := if q.holdoff ≤ 0 then s.trig.holdoff
        else some (s.trig.timestamp + BitVec.ofNat 64 (q.holdoff.toNat * 100)) }
    panel := { s.panel with triggered := some (s.trig.timestamp + 1000000000#64) }
    cap := { s.cap with
      cur := some { c with phase := .postFill, remaining := d.lEff - d.t - written.toNat }
      table := s.cap.table.map fun r =>
        if r.ident = c.ident then { r with
          start := some (((if written then (c.wpos + d.lEff - 1) % d.lEff else c.wpos) + d.lEff - d.t) % d.lEff)
          trigTime := some s.trig.timestamp, forced := !fire }
        else r } }

/-- Segment 1 of a new capture has begun, from the live setup and the input as they stand (R67, R77). -/
def NewCapture (s t : State) : Prop :=
  t.cap.capNo = s.cap.capNo + 1 ∧
    t.cap.desc = some (descriptorOf (s.cap.capNo + 1) t.cap.input t.setup.values) ∧
    t.cap.table.length = 1 ∧ (t.cap.cur.map fun c => (c.index, c.buffer)) = some (1, 0) ∧
    t.cap.settingsDiffer = false ∧ t.cap.maskStopMark = false

/-- What run control leaves alone: the setup, the memories and their queues, the display, the store, the readout unit, and the
panel but for its Triggered pulse. -/
def RunControlFrame (s t : State) : Prop :=
  t.setup = s.setup ∧ t.mem = s.mem ∧ t.dram = s.dram ∧ t.nv = s.nv ∧ t.store = s.store ∧ t.scan = s.scan ∧
    t.rd = s.rd ∧ t.mask = s.mask ∧ t.pins = s.pins ∧ t.powered = s.powered ∧
    t.panel.keys = s.panel.keys ∧ t.panel.knobs = s.panel.knobs ∧ t.panel.lamps = s.panel.lamps ∧
    t.panel.mode = s.panel.mode ∧ t.trig.timestamp = s.trig.timestamp

/-- The link after the RunState and AcqDone notices of a capture change that took `s` to `t` (R87, R90, R91; their order:
log 12). -/
def afterCaptureChange (s t : State) : Link :=
  match s.cap.runState with
  | .stopped => s.link
  | .running | .sequence => offerLink (.runState t.cap.runState (s.cap.capNo + 1) 0) s.link
  | .finishing =>
    offerLink (.acqDone s.cap.capNo 3 (finishedCount s) (s.cap.table.filter fun x => x.state == .damaged).length)
      (offerLink (.runState .stopped s.cap.capNo (finishedCount s)) s.link)

/-- A capture change took `s` to `t` (R15, R87): a stopped part marks that its settings differ, one that is finishing
stops, and one under way begins a new capture from the live setup of `t`. -/
def CaptureChanged (s t : State) : Prop :=
  (s.cap.runState = .stopped → t.cap = { s.cap with settingsDiffer := true }) ∧
    (s.cap.runState = .finishing → t.cap = { s.cap with settingsDiffer := true, runState := .stopped }) ∧
    (s.cap.runState = .running ∨ s.cap.runState = .sequence →
      NewCapture s t ∧ t.cap.input = s.cap.input ∧ t.cap.runState =
        (if s.cap.runState = .running ∧ getParam t.setup.values 0x54 = 1 then .running else .sequence))

/-- A trigger change took `s` to `t` (R16, R53, R61, R65): in Armed the live settings are latched, the detectors begin anew
and the auto timer restarts or stops; otherwise nothing happens. -/
def TriggerChanged (s t : State) : Prop :=
  (s.trig.arm ≠ .armed → t.trig = s.trig) ∧
    (∀ d, s.trig.arm = .armed → s.cap.desc = some d → t.trig = { s.trig with
      settings := some (liveTrig t), risePrimed := false, fallPrimed := false, pulse := none
      auto := if getParam t.setup.values 0x68 = 0 then some (s.trig.timestamp + BitVec.ofNat 64 (max 500000000 d.span))
        else none })

/-- What an applied change set hands on, with `last` done to the link after it (R10 to R17, R19, R87, R133; the order of the
notices: log 12). -/
def SetHandedOn (last : Link → Link) (s t : State) : Prop :=
  ∀ ids, ids = changedIds s.setup.values t.setup.values → ∀ front cap trig, front = classChanged ids .F →
    cap = (front || classChanged ids .C) → trig = classChanged ids .T →
    t.setup.words = s.setup.words ++
      ([1, 2, 3, 4].filter fun n => ids.contains (16 * n + 1) || ids.contains (16 * n + 3) || ids.contains (16 * n + 4)).map
        (fun n => BitVec.ofNat 16 (n - 1 + 4 * (getParam t.setup.values (16 * n + 1)).toNat +
          64 * (getParam t.setup.values (16 * n + 3)).toNat + 256 * (getParam t.setup.values (16 * n + 4)).toNat)) ∧
    t.setup.settle = (if front then some (s.trig.timestamp + 200000000#64) else s.setup.settle) ∧
    (cap = true → CaptureChanged s t) ∧ (cap = false → t.cap = s.cap ∧ t.panel.triggered = s.panel.triggered) ∧
    (cap = false → trig = true → TriggerChanged s t) ∧ (cap = false → trig = false → t.trig = s.trig) ∧
    (classChanged ids .D = true → t.ras.pendingClear = true ∧ (t.ras.runView = .stopped → t.ras.redraw = true)) ∧
    (cap = false → t.ras = if classChanged ids .D then { s.ras with
      pendingClear := true, redraw := s.ras.redraw || decide (s.ras.runView = .stopped) } else s.ras) ∧
    t.link.notices = (last (if ids = [] then s.link
      else offerLink (.paramChanged ids) (if cap then afterCaptureChange s t else s.link))).notices

/-! ## The display -/

/-- An extent runs from the least to the greatest of some rows, and carries their clip marks (R123). -/
def Spans (e : Extent) (rows : List TraceRow) : Prop :=
  (∀ r ∈ rows, e.top ≤ r.row ∧ r.row ≤ e.bottom) ∧ (∃ r ∈ rows, r.row = e.top) ∧ (∃ r ∈ rows, r.row = e.bottom) ∧
    (e.clipTop = true ↔ ∃ r ∈ rows, r.clipTop = true) ∧ (e.clipBottom = true ↔ ∃ r ∈ rows, r.clipBottom = true)

/-- The first address of a persistence set (R97). -/
def planeSetBase : PlaneSet → Nat
  | .setA => 260046848
  | .setB => 261646848

/-- The bursts that hold `n` bytes from an address on (R151). -/
def burstsFrom (lo n : Nat) : List Nat := (List.range ((lo + n - 1) / 64 - lo / 64 + 1)).map fun i => (lo / 64 + i) * 64

/-- The reads of the fetch of line `y`, for the channels it latched (R151). -/
def fetchReads (c : ScanOut) (channels : List Nat) (y : Nat) : List Nat :=
  (if c.overlayClearing then [] else burstsFrom (263246848 + y * 1280) 1280) ++
    (if c.planesCleared = true ∧ c.origin.2 ≤ y ∧ y ≤ c.origin.2 + 399 then
      channels.flatMap fun n => burstsFrom (planeSetBase c.front + (n - 1) * 400000 + (y - c.origin.2) * 1000) 1000
    else [])

/-- The display values of the live setup and of the rasterizer, as a pass latches them (R118). -/
def displayValues (vals : List Int) (due : Bool) (r : Raster) : Latched :=
  { persist := getParam vals 0x70, decay := getParam vals 0x71, style := getParam vals 0x72, grade := getParam vals 0x73
    zoom := getParam vals 0x74, hpos := getParam vals 0x75, segment := getParam vals 0x76
    enable := [getParam vals 0x10 != 0, getParam vals 0x20 != 0, getParam vals 0x30 != 0, getParam vals 0x40 != 0]
    position := [getParam vals 0x12, getParam vals 0x22, getParam vals 0x32, getParam vals 0x42]
    invert := [getParam vals 0x15 != 0, getParam vals 0x25 != 0, getParam vals 0x35 != 0, getParam vals 0x45 != 0]
    decayDue := due, clear := r.pendingClear, redraw := r.redraw }

/-! ## The setup store -/

/-- The state in which the operation of the request in hand-over has begun to program its record in sector `k`. It is answered
when the program completes (R169). -/
def programming (k : Nat) (tag : Byte) (op : StoreOp) (record : List Byte) (s : State) : State :=
  { s with
    link := afterDispatch s.link
    store := { s.store with
      sectors := s.store.sectors.set k { sectorRow s.store.sectors k with
        used := (sectorRow s.store.sectors k).used + record.length }
      inFlight := some {
        op := ⟨tag, op⟩, record := record, reclaimed := false, silent := false
        stage := .programming k (sectorRow s.store.sectors k).used } } }

/-- The store can start an operation at once, and records can be written (R165, R168, R171). -/
abbrev CanWrite (s : State) : Prop :=
  s.setup.loadApplied = true ∧ s.store.queue = [] ∧ s.store.inFlight = none ∧
    (findSector (inState .spare) s.store.sectors).isSome = true ∧ s.store.seqCounter ≤ 4294967295

/-- The state in which the operation of the request in hand-over is in flight at a stage, with the sector table as given. -/
def inStage (sectors : List Sector) (f : InFlight) (s : State) : State :=
  { s with link := afterDispatch s.link, store := { s.store with sectors := sectors, inFlight := some f } }

/-- A sector is the one a reclaim empties: Full, with the fewest live bytes, the lowest-numbered of equals (R170). -/
def IsVictim (sectors : List Sector) (v : Nat) : Prop :=
  v < sectors.length ∧ (sectorRow sectors v).state = .full ∧
    ∀ k, k < sectors.length → (sectorRow sectors k).state = .full →
      (sectorRow sectors v).live < (sectorRow sectors k).live ∨
        (sectorRow sectors v).live = (sectorRow sectors k).live ∧ v ≤ k

/-- A sector is the lowest-numbered in a state, or none is. -/
def IsFirst (st : SectorState) (sectors : List Sector) : Option Nat → Prop
  | some k => k < sectors.length ∧ (sectorRow sectors k).state = st ∧ ∀ j, j < k → (sectorRow sectors j).state ≠ st
  | none => ∀ j, j < sectors.length → (sectorRow sectors j).state ≠ st

/-- The operation of the request in hand-over, which writes `record`, has begun its NV work (R169, R170): it programs at the end
of the Active sector, or at the start of the lowest-numbered Erased one, which becomes Active, or a reclaim copies the
victim's first live record to the Spare, or erases a victim that has none. `lives` are the victim's live records. -/
def BeginsWriting (tag : Byte) (op : StoreOp) (record : List Byte) (s t : State) : Prop :=
  ∀ (active erased spare : Option Nat) (sectors : List Sector), IsFirst .active s.store.sectors active →
    (∀ k, active = some k → (sectorRow s.store.sectors k).used + record.length ≤ 4096 → t = programming k tag op record s) ∧
    ((∀ k, active = some k → 4096 < (sectorRow s.store.sectors k).used + record.length) →
      sectors = (match active with
        | some k => s.store.sectors.set k { sectorRow s.store.sectors k with state := .full }
        | none => s.store.sectors) →
      IsFirst .erased sectors erased → IsFirst .spare sectors spare →
      (∀ k, erased = some k → t = inStage (sectors.set k ⟨.active, record.length, 0⟩)
        ⟨⟨tag, op⟩, record, false, false, .programming k 0⟩ s) ∧
      (∀ v k lives, erased = none → spare = some k → IsVictim sectors v → lives = liveIn s.store v →
        lives.Pairwise (fun a b => a.offset ≤ b.offset) ∧
        (∀ x : LiveRecord, x ∈ lives ↔ (∃ e ∈ s.store.slots, (v, x) ∈ entryLive e) ∨
          s.store.powerOnLoc = some (v, x.offset) ∧ x.len = 17) ∧
        (lives = [] → t = inStage sectors ⟨⟨tag, op⟩, record, true, false, .erasing v none⟩ s) ∧
        (∀ x xs, lives = x :: xs → t = inStage
          (sectors.set k { sectorRow sectors k with used := (sectorRow sectors k).used + x.len })
          ⟨⟨tag, op⟩, record, true, false, .copying v k x (sectorRow sectors k).used xs⟩ s)))

/-- The NV area after a step differs from the one before only in a range of bytes. -/
def NvSameOutside (lo len : Nat) (s t : State) : Prop :=
  ∀ a, a < lo ∨ lo + len ≤ a → memRead 0xFF t.nv a = memRead 0xFF s.nv a

/-! ## The rebuild of the store's tables (R164 to R168) -/

/-- The two bytes at an offset of a sector are erased (R167; the sector's last byte: log 18). -/
def ErasedPair (nv : Memory) (k offset : Nat) : Prop :=
  offset + 2 ≤ 4096 ∧ memRead 0xFF nv (k * 4096 + offset) = 0xFF ∧ memRead 0xFF nv (k * 4096 + offset + 1) = 0xFF

/-- The record that begins at an offset of a sector (R164, R167). -/
def RecordAt (nv : Memory) (k offset : Nat) (bytes : List Byte) : Prop :=
  ¬ ErasedPair nv k offset ∧ intactRecord (sectorTail nv k offset) = some bytes

/-- The scan of a sector comes to an offset (R167). -/
inductive Reached (nv : Memory) (k : Nat) : Nat → Prop
  | start : Reached nv k 0
  | next {offset : Nat} {bytes : List Byte} :
    Reached nv k offset → RecordAt nv k offset bytes → Reached nv k (offset + bytes.length)

/-- The scan notes a record (R167). -/
def Noted (nv : Memory) (f : Found) : Prop :=
  f.sector < 32 ∧ Reached nv f.sector f.offset ∧ RecordAt nv f.sector f.offset f.bytes

/-- Every byte of a sector from an offset on is erased. -/
def BlankFrom (nv : Memory) (k offset : Nat) : Prop :=
  ∀ a, k * 4096 + offset ≤ a → a < (k + 1) * 4096 → memRead 0xFF nv a = 0xFF

/-- The scan of a sector ends on erased bytes, and every byte after them is erased (R167). -/
def EndsClean (nv : Memory) (k : Nat) : Prop := ∃ stop, Reached nv k stop ∧ ErasedPair nv k stop ∧ BlankFrom nv k stop

/-- A sector is a candidate for Active (R167). -/
def Candidate (nv : Memory) (k : Nat) : Prop := k < 32 ∧ EndsClean nv k ∧ ∃ f, Noted nv f ∧ f.sector = k

/-- A record wins its slot, or the power-on choice as key 64, or is the copy of one that does (R168). -/
def Wins (nv : Memory) (key : Nat) (f : Found) : Prop :=
  Noted nv f ∧ recordKey f.bytes = some key ∧
    ∀ g, Noted nv g → recordKey g.bytes = some key → recSeq g.bytes ≤ recSeq f.bytes

/-- Sector `a` holds a record of a kind of which sector `b` holds no copy. -/
def HoldsAlone (among : Found → Prop) (a b : Nat) : Prop :=
  ∃ f, among f ∧ f.sector = a ∧ ∀ g, among g → g.sector = b → g.bytes ≠ f.bytes

/-- The sector whose copies are used, of two, the lower-numbered `a` first (R168, step 1; when each holds what the other does
not: log 26). -/
def UsesCopiesOf (nv : Memory) (a b p : Nat) : Prop :=
  let alone := HoldsAlone fun f => ∃ key, Wins nv key f
  let any := HoldsAlone (Noted nv)
  (alone a b ∧ ¬ alone b a → p = a) ∧ (alone b a ∧ ¬ alone a b → p = b) ∧
    ((alone a b ↔ alone b a) → (any a b ∧ ¬ any b a → p = b) ∧ (any b a ∧ ¬ any a b → p = a) ∧
      ((any a b ↔ any b a) → (EndsClean nv b ∧ ¬ EndsClean nv a → p = b) ∧ (¬ EndsClean nv b ∨ EndsClean nv a → p = a)))

/-- What the tables say of a key when the record used for it is the one at a place. -/
def UsedFor (key : Nat) (f : Found) (st : Store) : Prop :=
  (key = 64 → st.powerOnSlot = recPowerOn f.bytes ∧ st.powerOnLoc = some (f.sector, f.offset)) ∧
    (key < 64 → st.slots[key]? = some (if recKind f.bytes = 1 then entryOf (.nv f.sector f.offset) f.bytes
      else .empty (some (f.sector, f.offset))))

/-- The slot table, the power-on choice and the sequence counter as the rebuild makes them from the NV area (R165, R166,
R168). -/
def SlotsRebuilt (nv : Memory) (st : Store) : Prop :=
  st.slots.length = 64 ∧
    (∀ key f, Wins nv key f → (∀ g, Wins nv key g → g = f) → UsedFor key f st) ∧
    (∀ key f g p a b, Wins nv key f → Wins nv key g → f.sector = a → g.sector = b → a < b →
      (∀ key' f' g', Wins nv key' f' → Wins nv key' g' → f' ≠ g' →
        f'.sector = a ∧ g'.sector = b ∨ f'.sector = b ∧ g'.sector = a) →
      UsesCopiesOf nv a b p → (p = a → UsedFor key f st) ∧ (p = b → UsedFor key g st)) ∧
    (∀ key, 4 ≤ key → key < 64 → (∀ f, ¬ Wins nv key f) → st.slots[key]? = some (.empty none)) ∧
    ((∀ f, ¬ Wins nv 64 f) → st.powerOnSlot = 0 ∧ st.powerOnLoc = none) ∧
    ((∀ f, ¬ Noted nv f) → st.seqCounter = 1) ∧
    (∀ f, Noted nv f → (∀ g, Noted nv g → recSeq g.bytes ≤ recSeq f.bytes) → st.seqCounter = recSeq f.bytes + 1)

/-- The sector table as the rebuild makes it, and the sector it must erase to make a Spare (R166 to R168). -/
def SectorsRebuilt (nv : Memory) (st : Store) : Prop :=
  st.sectors.length = 32 ∧
    (∀ k, k < 32 → (∀ stop, Reached nv k stop → (∀ bytes, ¬ RecordAt nv k stop bytes) →
        (sectorRow st.sectors k).used = stop) ∧
      (sectorRow st.sectors k).live = ((liveIn st k).map (·.len)).sum ∧
      (¬ BlankFrom nv k 0 → ¬ Candidate nv k → (sectorRow st.sectors k).state = .full) ∧
      (BlankFrom nv k 0 → (∃ j, j < k ∧ BlankFrom nv j 0) → (sectorRow st.sectors k).state = .erased) ∧
      (BlankFrom nv k 0 → (∀ j, j < k → ¬ BlankFrom nv j 0) → (sectorRow st.sectors k).state = .spare)) ∧
    (∀ k f, Candidate nv k → Noted nv f → f.sector = k →
      (∀ g, Noted nv g → Candidate nv g.sector → g.sector ≠ k → recSeq g.bytes < recSeq f.bytes) →
      (sectorRow st.sectors k).state = .active ∧
        ∀ j, Candidate nv j → j ≠ k → (sectorRow st.sectors j).state = .full) ∧
    ((∃ k, k < 32 ∧ BlankFrom nv k 0) → st.rebuildErase = none) ∧
    ((∀ k, k < 32 → ¬ BlankFrom nv k 0) → match st.rebuildErase with
      | some k => k < 32 ∧ (sectorRow st.sectors k).state ≠ .active ∧ (sectorRow st.sectors k).live = 0 ∧
        ∀ j, j < k → (sectorRow st.sectors j).state = .active ∨ (sectorRow st.sectors j).live ≠ 0
      | none => ∀ j, j < 32 → (sectorRow st.sectors j).state = .active ∨ (sectorRow st.sectors j).live ≠ 0)

/-- The change set of a recall: every parameter at an absolute value, and the mask section removed or replaced (R23). -/
def recallSet (vals : List Int) (mask : MaskEdit) : ChangeSet :=
  ⟨catalogue.map fun p => (p.id, .absolute (getParam vals p.id)), mask⟩

/-- A change set of a recall that the setup controller accepts (R5, R137). -/
def SetValid (vals : List Int) (mask : MaskEdit) : Prop :=
  vals.length = 49 ∧ (∀ p ∈ catalogue, PairValid (p.id, getParam vals p.id)) ∧
    (mask = .remove ∨ ∃ zones, mask = .replace zones ∧ zones.length = 200 ∧ ∀ z ∈ zones, BoundsValid z)

/-- A change set of a recall that the setup controller refuses, with its reason's code and its detail bytes: after pairs that
pass, one with an unknown id (UNKNOWN_PARAM), or one with a value its Enum lacks or the id of an earlier pair (BAD_VALUE); or
after all pairs pass, and after zones that pass, one that fails the zone check (R5, R137, R200). -/
def RecallRefused (cs : ChangeSet) (code : Nat) (detail : List Byte) : Prop :=
  ∃ good : List (Nat × Int), (good.map (·.1)).Nodup ∧ (∀ p ∈ good, PairValid p) ∧
    ((∃ id v rest, cs.pairs = good.map (fun p => (p.1, .absolute p.2)) ++ (id, .absolute v) :: rest ∧
        detail = [1, BitVec.ofNat 8 good.length, BitVec.ofNat 8 id] ∧
        (code = 4 ∧ (∀ i ∈ catalogue, i.id ≠ id) ∨
          code = 5 ∧ (∃ i ∈ catalogue, i.id = id) ∧ (id ∈ good.map (·.1) ∨ ¬ PairValid (id, v)))) ∨
      (cs.pairs = good.map (fun p => (p.1, .absolute p.2)) ∧ code = 5 ∧
        ∃ before z after, cs.mask = .replace (before ++ z :: after) ∧ (∀ y ∈ before, BoundsValid y) ∧ ¬ BoundsValid z ∧
          detail = 2 :: leBytes 2 before.length))

/-- The live setup after a recall's set has been applied, the capture lowered to fit or not (R6 to R10, R23). -/
def SetApplied (displayed : Option Nat) (vals : List Int) (mask : MaskEdit) (lowered : Bool) (u : Setup) : Prop :=
  u.values.length = 49 ∧
    (∀ p ∈ catalogue, p.id ≠ 0x54 → p.id ≠ 0x75 → getParam u.values p.id = clampParam p.id (getParam vals p.id)) ∧
    getParam u.values 0x75 = hposAllowed displayed u.values (getParam vals 0x75) ∧
    (lowered = true ↔
      260046848 < capacityRequirement (setParam u.values 0x54 (clampParam 0x54 (getParam vals 0x54)))) ∧
    getParam u.values 0x54 = (if lowered then ((260046848 / valuesPerSegment u.values : Nat) : Int)
      else clampParam 0x54 (getParam vals 0x54)) ∧
    (mask = .remove → u.mask = none) ∧
    (∀ zones, mask = .replace zones → u.mask = some (zones.map fun z =>
      if z = (0xFFFF, 0xFFFF) then Zone.unbounded else .bounded z.1 z.2))

/-- How many values of a recall were clamped: those that a limit or the last window met, and the lowered ACQ.SEGMENTS
(R23). -/
def clampedValues (vals new : List Int) (lowered : Bool) : Nat :=
  (catalogue.filter fun p => decide (clampParam p.id (getParam vals p.id) ≠ getParam vals p.id) ||
    decide (p.id = 0x75 ∧ getParam new 0x75 ≠ clampParam 0x75 (getParam vals 0x75))).length + lowered.toNat

/-! ## What every step keeps -/

/-- The live setup holds 49 values, each within its catalogue range or enumerated set (R1). -/
abbrev ValuesInRange (vals : List Int) : Prop :=
  vals.length = 49 ∧ ∀ p ∈ catalogue, p.lo ≤ getParam vals p.id ∧ getParam vals p.id ≤ p.hi

/-- The values and the mask section of the live setup: each value is within its limits, the capture they describe fits in
the capture region, and each zone has rows of the grid (R1, R2, R8, R9). -/
def SetupSound (s : State) : Prop :=
  ValuesInRange s.setup.values ∧ capacityRequirement s.setup.values ≤ 260046848 ∧
    ∀ zones, s.setup.mask = some zones → ∀ t b, Zone.bounded t b ∈ zones → t ≤ b ∧ b ≤ 399

/-- Two notices coalesce: they may not both be queued (R202). -/
def coalesce : Notice → Notice → Bool
  | .paramChanged _, .paramChanged _ => true
  | .linkFault _ _ _ _, .linkFault _ _ _ _ => true
  | .runState _ _ _, .runState _ _ _ => true
  | .panelKnob k _, .panelKnob k' _ => k == k'
  | _, _ => false

/-- The bounds of the notice queue (R202). -/
abbrev NoticesBounded (ns : List Notice) : Prop :=
  ns.length ≤ 32 ∧ ns.Pairwise fun a b => coalesce a b = false

/-- The bounds of the link (R198, R199, R202). -/
abbrev LinkBounded (l : Link) : Prop :=
  NoticesBounded l.notices ∧ l.requests.length ≤ 8 ∧ l.openCount ≤ 16 ∧
    (l.replies.filter fun r => r.origin == .linkRefusal).length ≤ 4

/-- The bounds of the class queues and of the scheduler's counts (R98, R103, R105, R106). -/
abbrev SchedulerBounded (s : State) : Prop :=
  s.cap.gather.length ≤ 64 ∧ s.mem.scanQ.length ≤ 16 ∧ s.mem.rasterQ.length ≤ 16 ∧ s.mem.readQ.length ≤ 8 ∧
    s.mem.owed ≤ 8 ∧ (∀ n ∈ s.mem.pass, n ≤ 16) ∧ s.mem.window.length = 23 ∧
    (s.mem.window.filter id).length ≤ 4

/-- The lock table holds at most four entries, of different slots, with 1 to 15 holds each (09, Locks). -/
abbrev LocksBounded (locks : List Lock) : Prop :=
  locks.length ≤ 4 ∧ (locks.map (·.slot)).Nodup ∧ ∀ l ∈ locks, 1 ≤ l.count ∧ l.count ≤ 15

/-- Both memories are in canonical form. -/
abbrev MemoriesCanonical (s : State) : Prop := Memory.wf dramDefault s.dram ∧ Memory.wf nvDefault s.nv

end Sys2Proof.Machine
end

