-- ==== Sys2Proof/Certificates/Slice0/Obligations.lean ====
section
/-! DEFINITION. The statements for the provers. Each names the rules of spec/ it rests on; where one rests on a choice of the model it names the log
entry. -/

open Sys2Proof Sys2Proof.Machine

/-! ## The queue and the step -/

/-- The command at the front of the queue is run over the state with the queue's rest. Rests on the model's choice of
log 1. -/
def Obligations.StepRunsFrontCommand : Prop :=
  ∀ (c : Instr) (rest : List Instr) (s : State), s.pending = c :: rest →
    step s = exec c { s with pending := rest }

/-- No command touches the queue of commands, none is refused, and only MEMORY_SLOT can stop the machine, with a burst
that does not lie inside the DRAM (R96). Rests on the model's choices of logs 1 and 4. -/
def Obligations.CommandsLeaveQueueAndRarelyStop : Prop :=
  ∀ (c : Instr) (s : State),
    (∃ t, exec c s = .next t ∧ t.pending = s.pending) ∨
      (c = .memorySlot ∧ ∃ a, 268435456 < a + 64 ∧ exec c s = .fault (.noSuchAddress a))

/-! ## Power -/

/-- POWER_ON puts every block in the power-on state its chapter gives, whatever it was doing: bindings, detectors,
queues, counts, tables, the palette and the line buffer, with the DRAM as after power-on. A part that had no power
keeps its NV area. Rests on the model's choices of logs 3, 4, 6, 7, 8 and 14. -/
def Obligations.PowerOnPutsEveryBlockInItsPowerOnState : Prop :=
  ∀ s : State, ∃ t, exec .powerOn s = .next t ∧
    t.powered = true ∧ t.pending = s.pending ∧ t.pins = s.pins ∧ t.dram = [] ∧ (s.powered = false → t.nv = s.nv) ∧
    -- R24
    t.setup.values = defaultValues ∧ t.setup.mask = none ∧ t.setup.settle = none ∧
    t.setup.loadApplied = false ∧ t.setup.fallback = false ∧ t.setup.waiting = [] ∧ t.setup.words = [] ∧
    -- R49
    PanelAtDefaults s.pins.knobLines t.panel ∧ t.panel.scanning = false ∧
    -- R50, R66
    t.trig.timestamp = 0 ∧ TriggerAtReset s.pins.ext t.trig ∧
    -- R94
    CaptureAtReset t.cap ∧ t.cap.capNo = 0 ∧ t.cap.serial = 0 ∧ t.cap.nextIdent = 0 ∧ t.cap.runTaken = false ∧
    -- R111
    t.mem.banks = List.replicate 8 .closed ∧ t.mem.window = List.replicate 23 false ∧ t.mem.scanQ = [] ∧
    t.mem.rasterQ = [] ∧ t.mem.readQ = [] ∧ t.mem.pass = [0, 0, 0, 0] ∧ t.mem.owed = 0 ∧ t.mem.refreshing = none ∧
    t.mem.intervalDue = 78000 ∧ t.mem.afterReset = false ∧
    -- R136, R147
    RasterAtReset t.ras ∧ t.mask = ⟨0, 0⟩ ∧
    -- R154, R160, R161
    t.scan.line = 0 ∧ t.scan.frame = 0 ∧ t.scan.front = .setA ∧ t.scan.origin = (140, 200) ∧
    t.scan.pendingOrigin = none ∧ t.scan.overlayClearing = true ∧ t.scan.planesCleared = false ∧
    t.scan.lateLines = 0 ∧ t.scan.fetch = none ∧ t.scan.palette.length = 256 ∧
    (∀ i, i < 256 → t.scan.palette[i]? = some (paletteDefault i)) ∧
    bufferLine t.scan = List.replicate 1280 0x000000#24 ∧
    t.scan.overlayWork = [⟨none, 0, 0, 1280, 800, .fill 0, 0, 0⟩] ∧
    -- R185, R193
    t.store.queue = [] ∧ t.store.waitingRecall = none ∧ t.store.inFlight = none ∧ t.store.locks = [] ∧
    t.store.rebuilding = true ∧ t.store.rebuildErase = none ∧ t.store.factory = s.store.factory ∧ t.rd = ⟨none, none, []⟩ ∧
    -- before the rebuild (log 7)
    t.store.sectors = List.replicate 32 ⟨.erased, 0, 0⟩ ∧ t.store.slots.drop 4 = List.replicate 60 (.empty none) ∧
    t.store.powerOnSlot = 0 ∧ t.store.powerOnLoc = none ∧ t.store.seqCounter = 1 ∧
    -- R206
    LinkAtReset t.link ∧ t.link.outByte = 0

/-- POWER_LOSS leaves the NV area as it was but for the bytes of the NV work it cuts off: the record being programmed,
the copy being made, or the sector being erased (R169, R185). With no NV work in progress it leaves all of it. A
record cut off on erased bytes is partial: what a scan finds at its place is neither erased bytes nor an intact record
(R167, R169). Rests on the model's choices of logs 4 and 5. -/
def Obligations.PowerLossTouchesOnlyNvWorkInProgress : Prop :=
  ∀ s : State, s.powered = true → ∃ t, exec .powerLoss s = .next t ∧
    t = { s with nv := t.nv, cuts := s.cuts + 1, powered := false } ∧
    (s.store.rebuildErase = none → s.store.inFlight = none → t.nv = s.nv) ∧
    (∀ f sector offset, s.store.rebuildErase = none → s.store.inFlight = some f → f.stage = .programming sector offset →
      f.record ≠ [] → ∀ a, a < sector * 4096 + offset ∨ sector * 4096 + offset + f.record.length ≤ a →
        memRead 0xFF t.nv a = memRead 0xFF s.nv a) ∧
    (∀ f victim spare rec dest rest, s.store.rebuildErase = none → s.store.inFlight = some f →
      f.stage = .copying victim spare rec dest rest → 1 ≤ rec.len →
      ∀ a, a < spare * 4096 + dest ∨ spare * 4096 + dest + rec.len ≤ a → memRead 0xFF t.nv a = memRead 0xFF s.nv a) ∧
    (∀ f k offset bytes, s.store.rebuildErase = none → s.store.inFlight = some f →
      (f.stage = .programming k offset ∧ bytes = f.record ∨ ∃ v x rest, f.stage = .copying v k x offset rest ∧
        bytes = memSlice 0xFF s.nv (v * 4096 + x.offset) x.len) →
      isIntact bytes = true → offset + bytes.length ≤ 4096 → Memory.wf 0xFF s.nv →
      (∀ i, i < bytes.length → memRead 0xFF s.nv (k * 4096 + offset + i) = 0xFF) →
      ¬ ErasedPair t.nv k offset ∧ ∀ found, ¬ RecordAt t.nv k offset found) ∧
    (∀ f victim spare, s.store.rebuildErase = none → s.store.inFlight = some f → f.stage = .erasing victim spare →
      ∀ a, a < victim * 4096 ∨ victim * 4096 + 4096 ≤ a → memRead 0xFF t.nv a = memRead 0xFF s.nv a) ∧
    (∀ k, s.store.rebuildErase = some k →
      ∀ a, a < k * 4096 ∨ k * 4096 + 4096 ≤ a → memRead 0xFF t.nv a = memRead 0xFF s.nv a)

/-! ## The link -/

/-- Echo is answered with its own payload (R203), and GetStatus with the 52 bytes of the table of R204. Neither
changes anything else. Rests on the model's choice of log 11. -/
def Obligations.EchoAndGetStatusAnswerAtOnce : Prop :=
  ∀ (r : Request) (s : State),
    (InHandover 0x01 r s → exec .echo s = .next (answered s (doneReply r r.payload))) ∧
    (InHandover 0x02 r s → ∃ p : List Byte,
    exec .getStatus s = .next (answered s (doneReply r p)) ∧ p.length = 52 ∧
    p = [(match s.cap.runState with | .stopped => 0 | .running => 1 | .sequence => 2 | .finishing => 3 : Byte),
        (match s.panel.mode with | .localMode => 0 | .remote => 1 | .lockout => 2 : Byte)] ++
      leBytes 4 s.cap.capNo.toNat ++ leBytes 4 s.cap.serial.toNat ++
      [BitVec.ofNat 8 (s.cap.settingsDiffer.toNat + 2 * s.cap.failLatch.toNat +
          4 * (!s.store.queue.isEmpty || s.store.inFlight.isSome).toNat + 8 * s.setup.fallback.toNat),
        BitVec.ofNat 8 (flagBits s.ras.overRange)] ++
      leBytes 4 s.link.lengthFaults ++ leBytes 4 s.link.crcFaults ++ leBytes 4 s.link.timeoutFaults ++
      leBytes 4 s.link.unanswered ++ leBytes 4 s.link.noticesLost ++ leBytes 4 s.cap.damagedCount ++
      leBytes 4 s.scan.lateLines ++ leBytes 4 s.mask.tested ++ leBytes 4 s.mask.failed ++
      leBytes 4 (s.panel.knobs.map (·.faults)).sum)

/-- Reset queues its Done reply and sets reset pending, so that no hand-over begins; nothing else changes (R205). -/
def Obligations.ResetQueuesDoneAndHoldsHandOver : Prop :=
  ∀ (r : Request) (s : State), InHandover 0x03 r s →
    exec .reset s = .next { s with link := { s.link with
      handover := none, resetPending := true
      replies := s.link.replies ++ [⟨0x80, r.tag, [], .resetDone⟩] } }

/-- The byte that ends the Reset's Done resets every block: what each keeps and what each drops. The live setup, the
counters, the display timing, the palette, the overlay plane and the store's tables stay; NV work in progress runs on
with no reply, and a power-on clear of the overlay goes on (R25, R49, R66, R95, R112, R136, R147, R161, R184, R193,
R206). Rests on the model's choices of logs 13 and 19. -/
def Obligations.ResetDoneLastByteResetsEveryBlock : Prop :=
  ∀ (b : Byte) (s : State) (f : Sending), s.powered = true → s.link.sending = some f → f.origin = .resetDone →
    f.frame.length = f.pos + 1 → ∃ t, exec (.hostClockedByte b) s = .next t ∧
    LinkAtReset t.link ∧ t.link.outByte = f.frame.getD f.pos 0 ∧
    t.setup = { s.setup with waiting := [] } ∧
    PanelAtDefaults s.pins.knobLines t.panel ∧ t.panel.scanning = s.setup.loadApplied ∧
    t.trig.timestamp = s.trig.timestamp ∧ TriggerAtReset s.pins.ext t.trig ∧
    CaptureAtReset t.cap ∧ t.cap.capNo = s.cap.capNo ∧ t.cap.serial = s.cap.serial ∧ t.cap.runTaken = s.cap.runTaken ∧
    t.mem.scanQ = [] ∧ t.mem.rasterQ = [] ∧ t.mem.readQ = [] ∧ t.mem.owed = 0 ∧ t.mem.pass = [0, 0, 0, 0] ∧
    t.mem.window = s.mem.window ∧ t.mem.intervalDue = s.mem.intervalDue ∧ t.mem.refreshing = s.mem.refreshing ∧
    (t.mem.afterReset = true ↔ s.mem.refreshing ≠ none) ∧ t.mem.banks.length = s.mem.banks.length ∧
    (∀ x ∈ t.mem.banks, x = .closed ∨ x = .refreshing) ∧
    (∀ i : Nat, t.mem.banks[i]? = some .refreshing ↔ s.mem.banks[i]? = some .refreshing) ∧
    RasterAtReset t.ras ∧ t.mask = ⟨0, 0⟩ ∧
    t.scan = { s.scan with
      front := .setA, planesCleared := false, lateLines := 0, fetch := none, overlayWork := t.scan.overlayWork } ∧
    t.scan.overlayWork = (s.scan.overlayWork.filter fun j => j.reply == none).map (fun j => { j with placed := j.granted }) ∧
    t.store = { s.store with
      queue := [], waitingRecall := none, locks := [], inFlight := t.store.inFlight } ∧
    (s.store.inFlight = none → t.store.inFlight = none) ∧
    (∀ g, s.store.inFlight = some g →
      ((∃ set, g.stage = .handed set) → t.store.inFlight = none) ∧
      ((∀ set, g.stage ≠ .handed set) → t.store.inFlight = some { g with silent := true })) ∧
    t.rd = ⟨none, none, []⟩ ∧ t.nv = s.nv ∧ t.dram = s.dram ∧ t.pins = s.pins

/-- A whole good frame of an allowed kind and length, clocked into a hunting assembler with the framer Idle and room
for it, is accepted: its hand-over begins, or it joins the request queue behind the hand-over in progress or a pending
reset. The part sends 0x00 all the while, and nothing outside the link changes (R194, R195, R198, R199, R201). A frame
whose length field is above 2112 or whose CRC does not match is counted and reported with LinkFault (R196). A good
frame of no request kind, of a length its kind does not allow, or that finds no room is refused by the link with
UNKNOWN_KIND, BAD_LENGTH or QUEUE_FULL while one of its four refusal places is free, and else counted as unanswered
(R197, R198). Rests on the model's choice of log 19. -/
def Obligations.FrameClockedInIsAccepted : Prop :=
  (∀ (r : Request) (s : State), s.powered = true → lengthAllowed r.kind r.payload = some true →
    s.link.asm = none → s.link.sending = none → s.link.replies = [] → s.link.notices = [] →
    s.link.requests.length < 8 → s.link.openCount < 16 →
    (s.link.handover = none → s.link.requests = [] → s.link.resetPending = false →
      clockIn (frameBytes r.kind r.tag r.payload) s =
        .next { s with link := { s.link with
          handover := some r, openCount := s.link.openCount + 1, outByte := 0 } }) ∧
    (s.link.handover ≠ none ∨ s.link.resetPending = true →
      clockIn (frameBytes r.kind r.tag r.payload) s =
        .next { s with link := { s.link with
          requests := s.link.requests ++ [r], openCount := s.link.openCount + 1, outByte := 0 } })) ∧
  ∀ (s : State) (bytes : List Byte) (due : Tick) (b : Byte) (out : Link), s.powered = true →
    s.link.asm = some ⟨bytes, due⟩ →
    (s.link.sending = none ∧ s.link.replies = [] ∧ s.link.notices = [] ∧ out = { s.link with asm := none, outByte := 0 } ∨
      ∃ f, s.link.sending = some f ∧ f.pos + 1 < f.frame.length ∧ out = { s.link with
        asm := none, outByte := f.frame.getD f.pos 0, sending := some { f with pos := f.pos + 1 } }) →
    (bytes.length = 3 → 2112 < (bytes.getD 2 0).toNat + 256 * b.toNat →
      exec (.hostClockedByte b) s = .next { s with link := offerLink (.linkFault 1 0 0 0) { out with
        lengthFaults := min 4294967295 (out.lengthFaults + 1) } }) ∧
    (∀ (r : Request) (body : List Byte) (w : Nat), r.payload.length ≤ 2112 → w < 65536 →
      body = r.kind :: r.tag :: leBytes 2 r.payload.length ++ r.payload → bytes ++ [b] = body ++ leBytes 2 w →
      (w ≠ (crc16 body).toNat →
        exec (.hostClockedByte b) s = .next { s with link := offerLink (.linkFault 0 1 0 0) { out with
          crcFaults := min 4294967295 (out.crcFaults + 1) } }) ∧
      (∀ code : Nat, w = (crc16 body).toNat →
        (lengthAllowed r.kind r.payload = none ∧ code = 1 ∨ lengthAllowed r.kind r.payload = some false ∧ code = 2 ∨
          lengthAllowed r.kind r.payload = some true ∧ code = 3 ∧ (8 ≤ s.link.requests.length ∨ 16 ≤ s.link.openCount)) →
        ((s.link.replies.filter fun p => p.origin == .linkRefusal).length < 4 →
          exec (.hostClockedByte b) s = .next { s with link := { out with
            replies := s.link.replies ++ [⟨0x81, r.tag, [BitVec.ofNat 8 code, r.kind, 0, 0, 0], .linkRefusal⟩] } }) ∧
        (4 ≤ (s.link.replies.filter fun p => p.origin == .linkRefusal).length →
          exec (.hostClockedByte b) s = .next { s with link := offerLink (.linkFault 0 0 0 1) { out with
            unanswered := min 4294967295 (out.unanswered + 1) } })))

/-- The outbound framer sends a frame byte by byte; with its last byte it takes the head reply, else the head notice,
else it is Idle. An Idle framer that finds a reply or a notice chooses it and sends its first byte, the sync, in that
clock; with none it sends 0x00. The last byte of a reply to an accepted request closes the request. The byte that
comes in is taken in Hunting and is no sync, so nothing else changes (R195, R199, R201). ATTN is high while a reply or
a notice waits or a frame is part-way out (R201). A notice offered joins the tail, or is counted as lost when 32 wait;
one that coalesces with a queued one is merged into it in its place: ids joined in ascending order, steps added up to
±32767, fault counts added up to 65535, the run state replaced (R19, R35, R90, R197, R202). Rests on the model's
choice of log 19. -/
def Obligations.FramerSendsFramesWholeAndInOrder : Prop :=
  (∀ s : State, attn s = true ↔ s.link.replies ≠ [] ∨ s.link.notices ≠ [] ∨ s.link.sending ≠ none) ∧
  (∀ (n : Notice) (l : Link),
    ((∀ q ∈ l.notices, coalesce q n = false) →
      (l.notices.length < 32 → offerLink n l = { l with notices := l.notices ++ [n] }) ∧
      (32 ≤ l.notices.length → offerLink n l = { l with noticesLost := min 4294967295 (l.noticesLost + 1) })) ∧
    (∀ pre q post, l.notices = pre ++ q :: post → (∀ x ∈ pre, coalesce x n = false) →
      (∀ a b, q = .paramChanged a → n = .paramChanged b → ∃ ids,
        offerLink n l = { l with notices := pre ++ .paramChanged ids :: post } ∧ ids.Pairwise (· < ·) ∧
        ∀ id, id ∈ ids ↔ knownParam id = true ∧ (id ∈ a ∨ id ∈ b)) ∧
      (∀ k x y, q = .panelKnob k x → n = .panelKnob k y →
        offerLink n l = { l with notices := pre ++ .panelKnob k (max (-32767) (min 32767 (x + y))) :: post }) ∧
      (∀ st c f st' c' f', q = .runState st c f → n = .runState st' c' f' →
        offerLink n l = { l with notices := pre ++ n :: post }) ∧
      (∀ a b c d a' b' c' d', q = .linkFault a b c d → n = .linkFault a' b' c' d' →
        offerLink n l = { l with
          notices := pre ++ .linkFault (min 65535 (a + a')) (min 65535 (b + b')) (min 65535 (c + c'))
            (min 65535 (d + d')) :: post }))) ∧
  (∀ (b : Byte) (s : State) (f : Sending), s.powered = true → s.link.sending = some f → s.link.asm = none → b ≠ 0xA5 →
    (f.pos + 1 < f.frame.length →
      exec (.hostClockedByte b) s = .next { s with link := { s.link with
        outByte := f.frame.getD f.pos 0, sending := some { f with pos := f.pos + 1 } } }) ∧
    (f.frame.length = f.pos + 1 → f.origin ≠ .resetDone → ∀ openNow,
      openNow = (if f.origin = .accepted then s.link.openCount - 1 else s.link.openCount) →
      (∀ p ps, s.link.replies = p :: ps →
        exec (.hostClockedByte b) s = .next { s with link := { s.link with
          outByte := f.frame.getD f.pos 0, openCount := openNow, replies := ps
          sending := some ⟨frameBytes p.kind p.tag p.payload, 0, p.origin⟩ } }) ∧
      (∀ n ns, s.link.replies = [] → s.link.notices = n :: ns →
        exec (.hostClockedByte b) s = .next { s with link := { s.link with
          outByte := f.frame.getD f.pos 0, openCount := openNow, notices := ns
          sending := some ⟨frameBytes (noticeKind n) 0 (noticePayload n), 0, .notice⟩ } }) ∧
      (s.link.replies = [] → s.link.notices = [] →
        exec (.hostClockedByte b) s = .next { s with link := { s.link with
          outByte := f.frame.getD f.pos 0, openCount := openNow, sending := none } }))) ∧
  ∀ (b : Byte) (s : State), s.powered = true → s.link.sending = none → s.link.asm = none → b ≠ 0xA5 →
    (∀ p ps, s.link.replies = p :: ps →
      exec (.hostClockedByte b) s = .next { s with link := { s.link with
        outByte := 0xA5, replies := ps, sending := some ⟨frameBytes p.kind p.tag p.payload, 1, p.origin⟩ } }) ∧
    (∀ n ns, s.link.replies = [] → s.link.notices = n :: ns →
      exec (.hostClockedByte b) s = .next { s with link := { s.link with
        outByte := 0xA5, notices := ns, sending := some ⟨frameBytes (noticeKind n) 0 (noticePayload n), 1, .notice⟩ } }) ∧
    (s.link.replies = [] → s.link.notices = [] →
      exec (.hostClockedByte b) s = .next { s with link := { s.link with outByte := 0 } })

/-! ## The live setup and the mask -/

/-- SetParams with distinct, valid pairs brings each value inside its limits, lowers ACQ.SEGMENTS when the set would
not fit, leaves every other value and the mask, and answers with the values it has set and the clamp that met each.
Beyond the setup controller it changes only the blocks that receive effects (R6 to R11, R20, R21). -/
def Obligations.SetParamsAppliesClampedValues : Prop :=
  ∀ (r : Request) (s : State) (ps : List (Nat × Int)),
    InHandover 0x08 r s → s.setup.loadApplied = true → s.setup.values.length = 49 → r.payload = setParamsBytes ps →
    1 ≤ ps.length → ps.length ≤ 16 → (ps.map (·.1)).Nodup → (∀ p ∈ ps, PairValid p ∧ Int32 p.2) →
    ∃ t lowered asked, exec .setParams s = .next t ∧ t.setup.values.length = 49 ∧ t.setup.mask = s.setup.mask ∧
      (∀ id, knownParam id = true → id ∉ ps.map (·.1) → id ≠ 0x54 →
        getParam t.setup.values id = getParam s.setup.values id) ∧
      (∀ p ∈ ps, p.1 ≠ 0x54 → p.1 ≠ 0x75 → getParam t.setup.values p.1 = clampParam p.1 p.2) ∧
      (∀ v, (0x75, v) ∈ ps → getParam t.setup.values 0x75 = hposAllowed s.ras.displayed t.setup.values v) ∧
      (0x54 ∉ ps.map (·.1) → asked = getParam s.setup.values 0x54) ∧
      (∀ v, (0x54, v) ∈ ps → asked = clampParam 0x54 v) ∧
      (lowered = true ↔ (∃ p ∈ ps, p.1 ∈ capacityIds) ∧
        260046848 < capacityRequirement (setParam t.setup.values 0x54 asked)) ∧
      getParam t.setup.values 0x54 =
        (if lowered then ((260046848 / valuesPerSegment t.setup.values : Nat) : Int) else asked) ∧
      t.link.replies = s.link.replies ++ [doneReply r
        (BitVec.ofNat 8 ps.length :: ps.flatMap (fun p =>
            BitVec.ofNat 8 p.1 :: leInt 4 (getParam t.setup.values p.1) ++
              [if p.1 = 0x54 ∧ lowered = true then 3
               else if p.1 = 0x75 ∧ getParam t.setup.values 0x75 ≠ clampParam 0x75 p.2 then 2
               else if clampParam p.1 p.2 ≠ p.2 then 1 else 0]) ++
          boolByte lowered :: leInt 4 (getParam t.setup.values 0x54))] ∧
      t.mem = s.mem ∧ t.dram = s.dram ∧ t.nv = s.nv ∧ t.store = s.store ∧ t.scan = s.scan ∧ t.rd = s.rd ∧
      t.mask = s.mask ∧ t.pins = s.pins ∧ t.powered = s.powered ∧
      t.panel = { s.panel with triggered := t.panel.triggered }

/-- What an applied SetParams hands on: the front-end words of each channel with a changed F-class value, in ascending
channel number, and 20 ms on the settle timer; a capture change for an F-class or C-class change (R15, R87), else a
trigger change for a T-class one (R16, R53, R61, R65); a pending clear for a D-class change; and at the end
ParamChanged, with the ids that changed (R10 to R14, R17, R19, R133). A set that changes nothing hands on nothing.
Rests on the model's choice of log 12. -/
def Obligations.SetParamsHandsOnEffects : Prop :=
  ∀ (r : Request) (s : State) (ps : List (Nat × Int)),
    InHandover 0x08 r s → s.setup.loadApplied = true → s.setup.values.length = 49 → r.payload = setParamsBytes ps →
    1 ≤ ps.length → ps.length ≤ 16 → (ps.map (·.1)).Nodup → (∀ p ∈ ps, PairValid p ∧ Int32 p.2) →
    ∃ t, exec .setParams s = .next t ∧ SetHandedOn (fun l => l) s t ∧
      (changedIds s.setup.values t.setup.values = [] →
        t.setup = s.setup ∧ t.cap = s.cap ∧ t.trig = s.trig ∧ t.ras = s.ras ∧ t.panel = s.panel ∧
        t.link.notices = s.link.notices)

/-- SetParams names the first pair that fails: an id the catalogue does not have, an Enum value that is not one of its
values, or an id given twice. Nothing changes (R3, R5, R20). -/
def Obligations.SetParamsRefusedChangesNothing : Prop :=
  ∀ (r : Request) (s : State) (good : List (Nat × Int)) (id : Nat) (v : Int) (rest : List (Nat × Int)),
    InHandover 0x08 r s → s.setup.loadApplied = true → r.payload = setParamsBytes (good ++ (id, v) :: rest) →
    good.length + 1 + rest.length ≤ 16 → (good.map (·.1)).Nodup → (∀ p ∈ good, PairValid p ∧ Int32 p.2) → Int32 v →
    id < 256 → (∀ p ∈ rest, p.1 < 256) →
    (knownParam id = false → exec .setParams s = .next (answered s
      (refusedReply r 4 [1, BitVec.ofNat 8 good.length, BitVec.ofNat 8 id]))) ∧
    (knownParam id = true → (id ∈ good.map (·.1) ∨ ¬ PairValid (id, v)) → exec .setParams s = .next (answered s
      (refusedReply r 5 [1, BitVec.ofNat 8 good.length, BitVec.ofNat 8 id])))

/-- GetParams answers the values asked for, in the order asked, and whether the mask section is present; an empty
payload asks for all 49. An unknown id refuses it. It changes nothing (R22). -/
def Obligations.GetParamsReportsLiveValues : Prop :=
  ∀ (r : Request) (s : State), InHandover 0x09 r s → s.setup.loadApplied = true →
    (r.payload = [] → exec .getParams s = .next (answered s (doneReply r
      ((catalogue.map (·.id)).flatMap (fun id => BitVec.ofNat 8 id :: leInt 4 (getParam s.setup.values id)) ++
        [boolByte s.setup.mask.isSome])))) ∧
    (∀ ids : List Nat, 1 ≤ ids.length → ids.length ≤ 49 → (∀ id ∈ ids, id < 256) →
      r.payload = BitVec.ofNat 8 ids.length :: ids.map (BitVec.ofNat 8) →
      ((∀ id ∈ ids, knownParam id = true) → exec .getParams s = .next (answered s (doneReply r
        (ids.flatMap (fun id => BitVec.ofNat 8 id :: leInt 4 (getParam s.setup.values id)) ++
          [boolByte s.setup.mask.isSome])))) ∧
      (∀ good id rest, ids = good ++ id :: rest → (∀ i ∈ good, knownParam i = true) → knownParam id = false →
        exec .getParams s = .next (answered s (refusedReply r 4
          [1, BitVec.ofNat 8 good.length, BitVec.ofNat 8 id]))))

/-- WriteMask writes a run of zones over the section, which becomes present with unbounded zones elsewhere when it was
absent, and answers whether it was present and how many zones now carry bounds. A run outside the 200 zones, or one
with a zone that fails the zone check, is refused and changes nothing (R137, R138). -/
def Obligations.WriteMaskWritesItsRun : Prop :=
  ∀ (r : Request) (s : State) (first : Nat) (zones : List (Nat × Nat)),
    InHandover 0x20 r s → s.setup.loadApplied = true → first < 256 → 1 ≤ zones.length → zones.length ≤ 200 →
    (∀ z ∈ zones, z.1 < 65536 ∧ z.2 < 65536) → MaskValid s.setup.mask →
    r.payload = BitVec.ofNat 8 first :: BitVec.ofNat 8 zones.length :: zones.flatMap (fun z => leBytes 2 z.1 ++ leBytes 2 z.2) →
    (first ≤ 199 → first + zones.length ≤ 200 → (∀ z ∈ zones, BoundsValid z) →
      ∃ section200, section200.length = 200 ∧
        (∀ k, k < 200 → section200[k]? = if first ≤ k ∧ k < first + zones.length then
            (zones[k - first]?).map fun z => if z = (0xFFFF, 0xFFFF) then Zone.unbounded else .bounded z.1 z.2
          else (s.setup.mask.getD (List.replicate 200 .unbounded))[k]?) ∧
        exec .writeMask s = .next { answered s (doneReply r
            [boolByte s.setup.mask.isSome, BitVec.ofNat 8 (section200.filter fun z => decide (z ≠ .unbounded)).length]) with
          setup := { s.setup with mask := some section200 } }) ∧
    (199 < first ∨ 200 < first + zones.length →
      exec .writeMask s = .next (answered s (refusedReply r 5 (2 :: leBytes 2 first)))) ∧
    (first ≤ 199 → first + zones.length ≤ 200 → ∀ good z rest, zones = good ++ z :: rest → (∀ y ∈ good, BoundsValid y) →
      ¬ BoundsValid z → exec .writeMask s = .next (answered s (refusedReply r 5 (2 :: leBytes 2 (first + good.length)))))

/-- ClearMask removes the mask section and answers whether there was one; nothing else changes (R139). ReadMask
answers the flag and the 200 zones of a present section, and changes nothing (R140). ClearMaskCounts answers both
counts as they were and sets them to 0 (R146). -/
def Obligations.MaskSectionIsClearedAndRead : Prop :=
  ∀ (r : Request) (s : State),
    (InHandover 0x23 r s → exec .clearMaskCounts s = .next {
      answered s (doneReply r (leBytes 4 s.mask.tested ++ leBytes 4 s.mask.failed)) with mask := ⟨0, 0⟩ }) ∧
    (s.setup.loadApplied = true → InHandover 0x21 r s → exec .clearMask s = .next { answered s (doneReply r [boolByte s.setup.mask.isSome]) with
      setup := { s.setup with mask := none } }) ∧
    (s.setup.loadApplied = true → InHandover 0x22 r s → exec .readMask s = .next (answered s (doneReply r
      (match s.setup.mask with
       | none => [0]
       | some zones => 1 :: zones.flatMap fun z => match z with
         | .unbounded => [0xFF, 0xFF, 0xFF, 0xFF]
         | .bounded t b => leBytes 2 t ++ leBytes 2 b))))

/-- The setup controller takes the oldest change set the panel has made: one pair, relative, flipped or set to its
home value. The value stops at its limits; DISP.HPOS stops at the last window too, and ACQ.SEGMENTS is kept when the
set fits and lowered to what fits when it does not. No reply is made, and the set is handed on as every applied set is
(R4, R6 to R17, R19, R30, R34). Rests on the model's choice of log 12. -/
def Obligations.PanelChangeSetMovesOneValue : Prop :=
  ∀ (s : State) (id : Nat) (pv : PairValue) (rest : List ChangeSet) (target : Int),
    s.powered = true → s.setup.loadApplied = true → s.setup.values.length = 49 →
    s.panel.toSetup = ⟨[(id, pv)], .keep⟩ :: rest → knownParam id = true →
    (∀ v, pv = .absolute v → PairValid (id, v)) →
    target = (match pv with
      | .absolute v => v
      | .relative d => getParam s.setup.values id + d
      | .flip => if getParam s.setup.values id = 0 then 1 else 0) →
    ∃ t lowered asked, exec .panelChangeSet s = .next t ∧ t.panel.toSetup = rest ∧ t.setup.mask = s.setup.mask ∧
      (∀ j, knownParam j = true → j ≠ id → j ≠ 0x54 → getParam t.setup.values j = getParam s.setup.values j) ∧
      (id ≠ 0x54 → id ≠ 0x75 → getParam t.setup.values id = clampParam id target) ∧
      (id = 0x75 → getParam t.setup.values id = hposAllowed s.ras.displayed t.setup.values target) ∧
      asked = (if id = 0x54 then clampParam 0x54 target else getParam s.setup.values 0x54) ∧
      (lowered = true ↔ id ∈ capacityIds ∧ 260046848 < capacityRequirement (setParam t.setup.values 0x54 asked)) ∧
      getParam t.setup.values 0x54 =
        (if lowered then ((260046848 / valuesPerSegment t.setup.values : Nat) : Int) else asked) ∧
      (id ∈ capacityIds → 1 ≤ valuesPerSegment t.setup.values → valuesPerSegment t.setup.values ≤ 130023424 →
        capacityRequirement t.setup.values ≤ 260046848) ∧
      SetHandedOn (fun l => l) s t ∧
      t.link.replies = s.link.replies ∧ t.mem = s.mem ∧ t.dram = s.dram ∧ t.nv = s.nv ∧ t.store = s.store ∧
      t.scan = s.scan ∧ t.rd = s.rd ∧ t.mask = s.mask ∧
      t.panel = { s.panel with toSetup := rest, triggered := t.panel.triggered }

/-- When the settle timer expires it stops. A segment in Holding whose buffer is not pinned enters PreFill at once, at
write position 0, and with no points before the trigger it goes on into Armed, where the engine's settings are those
of the live setup; any other segment stays as it is (R14, R52, R53, R77, R78). Rests on the model's choice of log 10.
-/
def Obligations.SettleExpiryLetsHoldingEnd : Prop :=
  ∀ (s : State) (due : Tick), s.powered = true → s.setup.settle = some due → due ≤ s.trig.timestamp →
    ((∀ c, s.cap.cur = some c → c.phase ≠ .holding) →
      exec .settleTimerExpiry s = .next { s with setup := { s.setup with settle := none } }) ∧
    (∀ c d, s.cap.cur = some c → c.phase = .holding → s.cap.desc = some d →
      (pinHolds s d c.buffer = true →
        exec .settleTimerExpiry s = .next { s with setup := { s.setup with settle := none } }) ∧
      (pinHolds s d c.buffer = false → d.t ≠ 0 →
        exec .settleTimerExpiry s = .next { s with
          setup := { s.setup with settle := none }
          cap := { s.cap with cur := some { c with phase := .preFill, wpos := 0, formed := 0, groups := [] } }
          trig := { s.trig with arm := .preFill } }) ∧
      (pinHolds s d c.buffer = false → d.t = 0 → s.trig.pendingForce = false →
        ∃ t, exec .settleTimerExpiry s = .next t ∧ t.setup.settle = none ∧ t.cap = { s.cap with cur := t.cap.cur } ∧
          (t.cap.cur.map fun e => (e.phase, e.wpos, e.formed, e.armedAny)) = some (.armed, 0, 0, false) ∧
          t.trig.arm = .armed ∧ t.trig.settings = some (liveTrig s) ∧
          t.trig.auto = (if getParam s.setup.values 0x68 = 0 then
            some (s.trig.timestamp + BitVec.ofNat 64 (max 500000000 d.span)) else none) ∧
          t.link = s.link ∧ t.panel = s.panel))

/-! ## The front panel -/

/-- SetPanelMode sets the mode, resets the acceleration of all knobs and answers the mode before; it offers no notice.
A mode byte above 2 is refused (R33, R42). -/
def Obligations.SetPanelModeResetsAcceleration : Prop :=
  ∀ (r : Request) (s : State) (v : Byte), InHandover 0x10 r s → r.payload = [v] →
    (∀ m, (v, m) ∈ [(0#8, PanelMode.localMode), (1#8, .remote), (2#8, .lockout)] →
      exec .setPanelMode s = .next { answered s (doneReply r [match s.panel.mode with
          | .localMode => 0 | .remote => 1 | .lockout => 2]) with
        panel := { s.panel with
          mode := m
          knobs := s.panel.knobs.map fun k => { k with run := 0, mult := 1, count := 0, quick := none } } }) ∧
    (2 < v.toNat → exec .setPanelMode s = .next (answered s (refusedReply r 5 [0, 0, 0])))

/-- SetKeyBinding replaces one key's action, and SetLampBinding one lamp's source, and nothing else: not the key's
debounced state or timer, not the lamp's host value. A number, a code or an argument outside its range is refused
(R43, R46). The codes and arguments that name an action or a source are those of the two tables, and no others. -/
def Obligations.KeyAndLampBindingsAreReplaced : Prop :=
  (∀ (code arg : Nat) (a : KeyAction), keyActionOf code arg = some a ↔
    (arg = 0 ∧ (code, a) ∈ [(0, KeyAction.none), (1, .report), (2, .runStop), (3, .single), (4, .forceTrigger),
        (5, .defaultSetup), (8, .toLocal), (9, .clearPersist)]) ∨
      (code = 6 ∧ 1 ≤ arg ∧ arg ≤ 4 ∧ a = .channelToggle arg) ∨ (code = 7 ∧ arg ≤ 63 ∧ a = .recall arg) ∨
      (code = 10 ∧ arg ≤ 7 ∧ a = .knobHome arg)) ∧
  (∀ (code arg : Nat) (x : LampSource), lampSourceOf code arg = some x ↔
    (arg = 0 ∧ (code, x) ∈ [(0, LampSource.off), (1, .hostDriven), (2, .running), (3, .stopped), (4, .singlePending),
        (5, .triggered), (7, .remote), (8, .maskFail), (9, .storeBusy)]) ∨
      (code = 6 ∧ 1 ≤ arg ∧ arg ≤ 4 ∧ x = .channelOn arg)) ∧
  ∀ (r : Request) (s : State) (n code arg : Byte), r.payload = [n, code, arg] →
    (InHandover 0x11 r s → s.panel.keys.length = 64 →
      (∀ k a, s.panel.keys[n.toNat]? = some k → keyActionOf code.toNat arg.toNat = some a →
        exec .setKeyBinding s = .next { answered s (doneReply r []) with
          panel := { s.panel with keys := s.panel.keys.set n.toNat { k with action := a } } }) ∧
      (63 < n.toNat ∨ keyActionOf code.toNat arg.toNat = none →
        exec .setKeyBinding s = .next (answered s (refusedReply r 5 [0, 0, 0])))) ∧
    (InHandover 0x14 r s → s.panel.lamps.length = 32 →
      (∀ l src, s.panel.lamps[n.toNat]? = some l → lampSourceOf code.toNat arg.toNat = some src →
        exec .setLampBinding s = .next { answered s (doneReply r []) with
          panel := { s.panel with lamps := s.panel.lamps.set n.toNat { l with source := src } } }) ∧
      (31 < n.toNat ∨ lampSourceOf code.toNat arg.toNat = none →
        exec .setLampBinding s = .next (answered s (refusedReply r 5 [0, 0, 0]))))

/-- SetKnobBinding replaces one knob's target, and SetKnobShape its resolution, H, Rr, M and Q; each resets that
knob's acceleration. A knob above 7 or a field outside its range is refused with BAD_VALUE, and a target that is
neither 0 nor in the catalogue with UNKNOWN_PARAM (R33, R44, R45). Rests on the model's choice of log 23. -/
def Obligations.KnobRequestsResetOneKnob : Prop :=
  ∀ (r : Request) (s : State), s.panel.knobs.length = 8 →
    (∀ (n target : Byte), InHandover 0x12 r s → r.payload = [n, target] →
    (∀ k, s.panel.knobs[n.toNat]? = some k → (target = 0 ∨ knownParam target.toNat = true) →
      exec .setKnobBinding s = .next { answered s (doneReply r []) with
        panel := { s.panel with knobs := s.panel.knobs.set n.toNat { k with
          run := 0, mult := 1, count := 0, quick := none
          target := if target = 0 then none else some target.toNat } } }) ∧
    (n.toNat ≤ 7 → target ≠ 0 → knownParam target.toNat = false →
      exec .setKnobBinding s = .next (answered s (refusedReply r 4 [0, 0, 0]))) ∧
    (7 < n.toNat → exec .setKnobBinding s = .next (answered s (refusedReply r 5 [0, 0, 0])))) ∧
    (∀ (n res h rr m : Byte) (q : Nat), InHandover 0x13 r s → q < 65536 →
      r.payload = [n, res, h, rr, m] ++ leBytes 2 q →
    ((∀ k, s.panel.knobs[n.toNat]? = some k → (res = 1 ∨ res = 2 ∨ res = 4) → h.toNat ≤ 15 →
        1 ≤ rr.toNat → rr.toNat ≤ 16 → 1 ≤ m.toNat → m.toNat ≤ 100 → 5 ≤ q → q ≤ 500 →
      exec .setKnobShape s = .next { answered s (doneReply r []) with
        panel := { s.panel with knobs := s.panel.knobs.set n.toNat { k with
          run := 0, mult := 1, count := 0, quick := none
          resolution := res.toNat, hold := h.toNat, ramp := rr.toNat, maxMult := m.toNat, quickMs := q } } }) ∧
    (7 < n.toNat ∨ (res ≠ 1 ∧ res ≠ 2 ∧ res ≠ 4) ∨ 15 < h.toNat ∨ rr = 0 ∨ 16 < rr.toNat ∨ m = 0 ∨ 100 < m.toNat ∨
        q < 5 ∨ 500 < q →
      exec .setKnobShape s = .next (answered s (refusedReply r 5 [0, 0, 0])))))

/-- SetLamp writes the host value of every lamp it names, in one event, and of no other; a lamp above 31, a state
above 1 or a lamp named twice refuses it and changes nothing (R47). -/
def Obligations.SetLampWritesNamedLamps : Prop :=
  ∀ (r : Request) (s : State) (ps : List (Byte × Byte)), InHandover 0x15 r s → s.panel.lamps.length = 32 →
    1 ≤ ps.length → ps.length ≤ 32 →
    r.payload = BitVec.ofNat 8 ps.length :: ps.flatMap (fun p => [p.1, p.2]) →
    ((ps.map (·.1)).Nodup → (∀ p ∈ ps, p.1.toNat ≤ 31 ∧ p.2.toNat ≤ 1) →
      ∃ lamps, exec .setLamp s = .next { answered s (doneReply r []) with panel := { s.panel with lamps := lamps } } ∧
        lamps.length = 32 ∧
        ∀ (i : Byte) (l : Lamp), s.panel.lamps[i.toNat]? = some l →
          (∀ v, (i, v) ∈ ps → lamps[i.toNat]? = some { l with host := decide (v = 1) }) ∧
          (i ∉ ps.map (·.1) → lamps[i.toNat]? = some l)) ∧
    (¬ (ps.map (·.1)).Nodup ∨ (∃ p ∈ ps, 31 < p.1.toNat ∨ 1 < p.2.toNat) →
      exec .setLamp s = .next (answered s (refusedReply r 5 [0, 0, 0])))

/-- GetPanel answers the panel's whole state in the order of R48, 433 bytes, and changes nothing (R48). A lamp's
output byte says whether its source lights it (R39, R40). -/
def Obligations.GetPanelReportsThePanel : Prop :=
  ∀ (r : Request) (s : State), InHandover 0x16 r s → s.panel.keys.length = 64 → s.panel.knobs.length = 8 →
    s.panel.lamps.length = 32 → ∃ (p outs : List Byte), exec .getPanel s = .next (answered s (doneReply r p)) ∧ p.length = 433 ∧
    p = [match s.panel.mode with | .localMode => (0 : Byte) | .remote => 1 | .lockout => 2] ++
      s.panel.keys.map (fun k => if k.down then (1 : Byte) else 0) ++
      s.panel.keys.flatMap (fun k =>
        [BitVec.ofNat 8 (keyActionCode k.action).1, BitVec.ofNat 8 (keyActionCode k.action).2]) ++
      s.panel.knobs.flatMap (fun k =>
        [BitVec.ofNat 8 (k.target.getD 0), BitVec.ofNat 8 k.resolution, BitVec.ofNat 8 k.hold, BitVec.ofNat 8 k.ramp,
          BitVec.ofNat 8 k.maxMult] ++ leBytes 2 k.quickMs ++ leInt 1 k.count ++
        [BitVec.ofNat 8 k.mult, BitVec.ofNat 8 k.run, if k.clockwise then 1 else 0xFF, if k.quick.isSome then 1 else 0] ++
        leBytes 2 k.faults) ++
      s.panel.lamps.flatMap (fun l =>
        [BitVec.ofNat 8 (lampSourceCode l.source).1, BitVec.ofNat 8 (lampSourceCode l.source).2]) ++
      s.panel.lamps.map (fun l => if l.host then (1 : Byte) else 0) ++
      outs ∧ outs.length = 32 ∧
    ∀ (i : Nat) (l : Lamp), s.panel.lamps[i]? = some l → ∃ lit : Bool, outs[i]? = some (if lit then 1 else 0) ∧ match l.source with
      | .off => lit = false
      | .hostDriven => lit = l.host
      | .running => lit = true ↔ s.cap.runState = .running ∨ s.cap.runState = .sequence
      | .stopped => lit = true ↔ s.cap.runState = .stopped
      | .singlePending => ∀ d, s.cap.desc = some d → (lit = true ↔ s.cap.runState = .sequence ∧ d.n = 1)
      | .triggered => lit = true ↔ s.panel.triggered ≠ none
      | .channelOn n => lit = true ↔ getParam s.setup.values (16 * n) ≠ 0
      | .remote => lit = true ↔ s.panel.mode ≠ .localMode
      | .maskFail => lit = s.cap.failLatch
      | .storeBusy => lit = true ↔ s.store.queue ≠ [] ∨ s.store.inFlight ≠ none

/-- One scan of the key matrix: each key whose input differs from its last one takes the new input and restarts its
debounce timer with 8 ms; the other keys and everything else stay as they are. Before the panel scans, nothing happens
(R26). -/
def Obligations.KeyScanRestartsChangedKeys : Prop :=
  ∀ (s : State) (down : BitVec 64), s.powered = true → s.panel.keys.length = 64 →
    (s.panel.scanning = false → exec (.keyScan down) s = .next s) ∧
    (s.panel.scanning = true → ∃ keys, exec (.keyScan down) s = .next { s with panel := { s.panel with keys := keys } } ∧
      keys.length = 64 ∧ ∀ i k, s.panel.keys[i]? = some k → keys[i]? = some
        (if down.getLsbD i = k.lastDown then k
         else { k with lastDown := down.getLsbD i, debounce := some (s.trig.timestamp + 80000000#64) }))

/-- When a key's debounce timer expires it stops, and its debounced state becomes its input. A press in Local mode is
taken by the key's binding; a release is reported in Local mode only by a Report key. In Remote mode a press of a
Local key returns the panel to Local, and every other press or release, and every one in RemoteLockout, is reported
with PanelKey (R27 to R30, R36 to R38). Rests on the model's choices of logs 10 and 13. -/
def Obligations.DebounceExpiryPressesOrReleases : Prop :=
  ∀ (s : State) (i : Nat) (k : Key) (due : Tick) (p : Panel), s.powered = true → i < 64 →
    s.panel.keys[i]? = some k → k.debounce = some due → due ≤ s.trig.timestamp →
    p = { s.panel with keys := s.panel.keys.set i { k with debounce := none, down := k.lastDown } } →
    (k.lastDown = k.down → exec (.debounceExpiry i) s = .next { s with panel := p }) ∧
    (k.lastDown ≠ k.down → ∀ report, report = offerLink (.panelKey i k.lastDown s.panel.mode) s.link →
      (s.panel.mode = .localMode → k.action = .report →
        exec (.debounceExpiry i) s = .next { s with panel := p, link := report }) ∧
      (s.panel.mode = .localMode → k.action ≠ .report → k.lastDown = false →
        exec (.debounceExpiry i) s = .next { s with panel := p }) ∧
      (s.panel.mode = .localMode → k.action ≠ .report → k.lastDown = true →
        exec (.debounceExpiry i) s = .next { s with panel := match k.action with
          | .none | .report | .toLocal => p
          | .runStop => { p with toCapture := p.toCapture ++ [.runStop] }
          | .single => { p with toCapture := p.toCapture ++ [.single] }
          | .forceTrigger => { p with toTrigger := p.toTrigger + 1 }
          | .defaultSetup => { p with toStore := p.toStore ++ [0] }
          | .recall slot => { p with toStore := p.toStore ++ [slot] }
          | .clearPersist => { p with toRaster := p.toRaster + 1 }
          | .channelToggle n => { p with toSetup := p.toSetup ++ [⟨[(16 * n, .flip)], .keep⟩] }
          | .knobHome j => match (p.knobs[j]?).bind (·.target) with
            | some id => { p with toSetup := p.toSetup ++ [⟨[(id, .absolute (homeValue id))], .keep⟩] }
            | none => p }) ∧
      (s.panel.mode = .remote → k.action = .toLocal → k.lastDown = true →
        exec (.debounceExpiry i) s = .next { s with
          panel := { p with
            mode := .localMode
            knobs := p.knobs.map fun kn => { kn with run := 0, mult := 1, count := 0, quick := none } }
          link := offerLink (.panelMode .localMode) s.link }) ∧
      (s.panel.mode = .remote → k.action ≠ .toLocal ∨ k.lastDown = false →
        exec (.debounceExpiry i) s = .next { s with panel := p, link := report }) ∧
      (s.panel.mode = .lockout → exec (.debounceExpiry i) s = .next { s with panel := p, link := report }))

/-- A change of a knob's lines: a step along the Gray sequence 00, 01, 11, 10 counts one transition forward or back,
and two changed lines are an encoder fault, which sets the count to 0. A transition that completes no detent changes
nothing else; resolutions 1, 2 and 4 make a detent of four, two and one transitions (R31). -/
def Obligations.KnobLineChangeCountsTransitions : Prop :=
  (∀ (resolution : Nat) (n : Int), (resolution, n) ∈ [(1, (4 : Int)), (2, 2), (4, 1)] → perDetent resolution = n) ∧
  ∀ (s : State) (i : Nat) (k : Knob) (new : BitVec 2) (pins : Pins), s.powered = true → s.panel.scanning = true →
    i < 8 → s.panel.knobs[i]? = some k → pins = { s.pins with knobLines := s.pins.knobLines.set i new } →
    (new = k.lines → exec (.knobLineChange i new) s = .next { s with pins := pins }) ∧
    (new = ~~~ k.lines → exec (.knobLineChange i new) s = .next { s with
      pins := pins
      panel := { s.panel with knobs := s.panel.knobs.set i { k with
        lines := new, count := 0, faults := min 65535 (k.faults + 1) } } }) ∧
    (∀ step : Int, ((k.lines, new), step) ∈
        [((0#2, 1#2), 1), ((1#2, 3#2), 1), ((3#2, 2#2), 1), ((2#2, 0#2), 1),
         ((0#2, 2#2), -1), ((2#2, 3#2), -1), ((3#2, 1#2), -1), ((1#2, 0#2), -1)] →
      (k.count + step ≠ perDetent k.resolution → k.count + step ≠ -perDetent k.resolution →
        exec (.knobLineChange i new) s = .next { s with
          pins := pins
          panel := { s.panel with knobs := s.panel.knobs.set i { k with lines := new, count := k.count + step } } }))

/-- The transition that completes a detent: the count goes to 0, the run count and m follow R32, and the quick timer
starts with Q ms. In Local mode a knob bound to a parameter hands one relative pair to the setup controller: one step
for an Enum or Sequence parameter, m knob units for a Range one, where DISP.HPOS's unit is a column of the window. Any
other knob offers PanelKnob with m steps (R31 to R35). -/
def Obligations.DetentAcceleratesAndMoves : Prop :=
  ∀ (s : State) (i : Nat) (k k' : Knob) (new : BitVec 2) (cw : Bool) (pins : Pins) (goesOn : Bool) (m run : Nat),
    s.powered = true → s.panel.scanning = true → i < 8 → s.panel.knobs[i]? = some k →
    pins = { s.pins with knobLines := s.pins.knobLines.set i new } →
    classify k.lines new = (if cw then .forward else .reverse) →
    k.count + (if cw then 1 else -1) = (if cw then perDetent k.resolution else -perDetent k.resolution) →
    goesOn = (k.quick.isSome && k.clockwise == cw) →
    run = (if goesOn then min 255 (k.run + 1) else 1) →
    m = (if run > k.hold then min k.maxMult ((if goesOn then k.mult else 1) + k.ramp) else if goesOn then k.mult else 1) →
    k' = { k with
      lines := new, count := 0, run := run, mult := m, clockwise := cw
      quick := some (s.trig.timestamp + BitVec.ofNat 64 (k.quickMs * 10000000)) } →
    (∀ row ∈ catalogue, ∀ unit delta : Int, s.panel.mode = .localMode → k.target = some row.id →
      unit = (if row.id = 0x75 then max 1 ((windowWidth (s.ras.displayed.getD (valuesLength s.setup.values))
        (getParam s.setup.values 0x74).toNat / 1000 : Nat) : Int) else row.unit) →
      delta = (if cw then 1 else -1) * (if row.kind = .range then m * unit else 1) →
      exec (.knobLineChange i new) s = .next { s with
        pins := pins
        panel := { s.panel with
          knobs := s.panel.knobs.set i k'
          toSetup := s.panel.toSetup ++ [⟨[(row.id, .relative delta)], .keep⟩] } }) ∧
    (s.panel.mode ≠ .localMode ∨ k.target = none →
      exec (.knobLineChange i new) s = .next { s with
        pins := pins
        panel := { s.panel with knobs := s.panel.knobs.set i k' }
        link := offerLink (.panelKnob i ((if cw then 1 else -1) * m)) s.link })

/-! ## Triggers and captures -/

/-- A force is answered by what the segment was doing. In Armed it is accepted at once, with result 0, as a forced
trigger at the newest tick. In PreFill it is left pending, with result 1. Otherwise it does nothing, with result 2
(R59, R63, R64, R74, R78). Rests on the model's choice of log 15. -/
def Obligations.ForceTriggerActsByArmView : Prop :=
  ∀ (r : Request) (s : State), InHandover 0x18 r s →
    (s.trig.arm = .idle → exec .forceTrigger s = .next (answered s (doneReply r [2]))) ∧
    (s.trig.arm = .preFill → exec .forceTrigger s = .next { answered s (doneReply r [1]) with
      trig := { s.trig with pendingForce := true } }) ∧
    (∀ c d q written, s.trig.arm = .armed → s.cap.cur = some c → c.phase = .armed → s.cap.desc = some d →
      s.trig.settings = some q → written = (c.formed == 0 && c.armedAny) →
      (d.t + written.toNat < d.lEff →
        exec .forceTrigger s = .next { accepted false written c d q s with
          link := (answered s (doneReply r [0])).link }) ∧
      (d.lEff ≤ d.t + written.toNat → ∃ t, exec .forceTrigger s = .next t ∧
        t.link.replies = s.link.replies ++ [doneReply r [0]]))

/-- A ForceTrigger key and the auto timer force a trigger too, with no reply; the auto timer stops (R61 to R63). The
expiry of the auto or the holdoff timer can come just before or after the sample of its due tick, so that of it and a
fire at that tick either is taken first (R58, R62). Rests on the model's choices of logs 10, 13 and 15. -/
def Obligations.KeyAndAutoTimerForceTriggers : Prop :=
  ∀ (s : State), s.powered = true →
    (∀ n, s.panel.toTrigger = n + 1 →
      (s.trig.arm = .idle → exec .keyForceTrigger s = .next { s with panel := { s.panel with toTrigger := n } }) ∧
      (s.trig.arm = .preFill → exec .keyForceTrigger s = .next { s with
        panel := { s.panel with toTrigger := n }, trig := { s.trig with pendingForce := true } }) ∧
      (∀ c d q written, s.trig.arm = .armed → s.cap.cur = some c → c.phase = .armed → s.cap.desc = some d →
        s.trig.settings = some q → written = (c.formed == 0 && c.armedAny) → d.t + written.toNat < d.lEff →
        exec .keyForceTrigger s =
          .next (accepted false written c d q { s with panel := { s.panel with toTrigger := n } }))) ∧
    (∀ due c d q written, s.trig.auto = some due → due.toNat ≤ s.trig.timestamp.toNat + 1 → s.cap.cur = some c →
      c.phase = .armed → s.cap.desc = some d → s.trig.settings = some q → written = (c.formed == 0 && c.armedAny) →
      d.t + written.toNat < d.lEff → exec .autoTimerExpiry s = .next (accepted false written c d q s)) ∧
    (∀ due, s.trig.holdoff = some due → due.toNat ≤ s.trig.timestamp.toNat + 1 →
      exec .holdoffExpiry s = .next { s with trig := { s.trig with holdoff := none } }) ∧
    (∀ due, s.trig.timestamp.toNat + 1 < due.toNat →
      (s.trig.auto = some due → exec .autoTimerExpiry s = .next s) ∧
      (s.trig.holdoff = some due → exec .holdoffExpiry s = .next s))

/-- Every tick advances the timestamp counter by one and samples the external trigger input, and leaves the setup, the
memories and their queues, the display but for the rasterizer, the store and the readout unit as they are. With no
settings in use and no segment that forms points it changes nothing else (R50, R51, R69, R71). -/
def Obligations.TickAdvancesTimestamp : Prop :=
  ∀ (s : State) (c1 c2 c3 c4 : Byte) (ext : Bool), s.powered = true →
    (∃ t, exec (.tick c1 c2 c3 c4 ext) s = .next t ∧ t.trig.timestamp = s.trig.timestamp + 1 ∧
      t.trig.extLevel = (if s.cap.input = .adc then ext else false) ∧ t.pins = { s.pins with ext := ext } ∧
      t.setup = s.setup ∧ t.mem = s.mem ∧ t.dram = s.dram ∧ t.nv = s.nv ∧ t.store = s.store ∧ t.scan = s.scan ∧
      t.rd = s.rd ∧ t.mask = s.mask ∧ t.link.replies = s.link.replies ∧ t.link.requests = s.link.requests ∧
      t.cap.capNo = s.cap.capNo ∧ t.cap.desc = s.cap.desc ∧ t.cap.watermark ≤ s.cap.watermark) ∧
    (s.trig.settings = none → (∀ c, s.cap.cur = some c → c.phase = .holding ∨ c.phase = .draining) →
      exec (.tick c1 c2 c3 c4 ext) s = .next { s with
        pins := { s.pins with ext := ext }
        trig := { s.trig with
          timestamp := s.trig.timestamp + 1, extLevel := if s.cap.input = .adc then ext else false } })

/-- A rising edge trigger on a channel: a code at or below level − hysteresis (not below 0) primes the detector, a
primed detector is kept below the level, and a primed detector that reaches the level fires and is primed no longer. A
fire in Armed with no holdoff is accepted at its own tick; the forming point becomes the trigger point (R54, R55, R58,
R59, R74). The same for every source, type and slope: both detectors, the edges of the external input, which gives
none under the Pattern input, and the widths of pulses (R54 to R57, R71). A fire that is not accepted leaves the
detectors and the pulse start as it found them made. Rests on the model's choice of log 15. -/
def Obligations.RisingEdgePrimesFiresAndIsAccepted : Prop :=
  (∀ (s : State) (c1 c2 c3 c4 : Byte) (ext : Bool) (q : TrigSettings) (k : Nat) (code : Byte), s.powered = true →
    s.cap.input = .adc → s.trig.settings = some q → q.type = 0 → q.slope = 0 → q.source = k → k ≤ 3 →
    [c1, c2, c3, c4][k]? = some code →
    (∀ u, u = { s with
        pins := { s.pins with ext := ext }
        trig := { s.trig with timestamp := s.trig.timestamp + 1, extLevel := ext, fallPrimed := false } } →
      (s.cap.cur = none → s.trig.risePrimed = false → (code.toNat : Int) ≤ max 0 (q.level - q.hyst) →
        exec (.tick c1 c2 c3 c4 ext) s = .next { u with trig := { u.trig with risePrimed := true } }) ∧
      (s.cap.cur = none → s.trig.risePrimed = false → max 0 (q.level - q.hyst) < (code.toNat : Int) →
        exec (.tick c1 c2 c3 c4 ext) s = .next u) ∧
      (s.cap.cur = none → s.trig.risePrimed = true → (code.toNat : Int) < q.level →
        exec (.tick c1 c2 c3 c4 ext) s = .next u) ∧
      (s.cap.cur = none → s.trig.arm ≠ .armed → s.trig.risePrimed = true → q.level ≤ (code.toNat : Int) →
        exec (.tick c1 c2 c3 c4 ext) s = .next { u with trig := { u.trig with risePrimed := false } }) ∧
      (∀ c d, s.trig.arm = .armed → s.trig.holdoff = none → s.cap.cur = some c → c.phase = .armed →
        s.cap.desc = some d → d.input = .adc → c.formed + 1 < d.d →
        s.trig.risePrimed = true → q.level ≤ (code.toNat : Int) →
        ∃ t, exec (.tick c1 c2 c3 c4 ext) s = .next t ∧
          (∀ a, a = accepted true false c d q { u with trig := { u.trig with risePrimed := false } } →
            t.trig = a.trig ∧ t.panel = a.panel ∧ t.cap.table = a.cap.table ∧ t.link = s.link ∧
            t.cap.cur = some { c with
              phase := .postFill, remaining := d.lEff - d.t, formed := c.formed + 1
              groups := addCodes c.formed c.groups [c1.toNat, c2.toNat, c3.toNat, c4.toNat] })))) ∧
  ∀ (s : State) (c1 c2 c3 c4 : Byte) (ext : Bool) (q : TrigSettings) (now : Tick) (codes : List Nat) (code : Int)
    (was is rising falling fire : Bool) (u : State), s.powered = true → s.trig.settings = some q → (q.type = 0 ∨ q.type = 1) →
    0 ≤ q.slope → q.slope ≤ 2 → 0 ≤ q.source → q.source ≤ 4 → now = s.trig.timestamp + 1 →
    codes = (if s.cap.input = .adc then [c1.toNat, c2.toNat, c3.toNat, c4.toNat]
      else [1, 2, 3, 4].map fun n => if now.toNat / (5000 * n) % 2 = 0 then 178 else 78) →
    code = ((codes.getD q.source.toNat 0 : Nat) : Int) → was = (decide (s.cap.input = .adc) && s.trig.extLevel) →
    is = (decide (s.cap.input = .adc) && ext) → rising = risingFire q s.trig.risePrimed was is code →
    falling = fallingFire q s.trig.fallPrimed was is code → (rising && falling) = false →
    fire = triggerFire q s.trig.pulse now rising falling →
    u = { s with pins := { s.pins with ext := ext }, trig := engineAfter q now is rising falling code s.trig } →
    (s.cap.cur = none → (fire = false ∨ s.trig.arm ≠ .armed ∨ s.trig.holdoff ≠ none) →
      exec (.tick c1 c2 c3 c4 ext) s = .next u) ∧
    (∀ c d, s.cap.cur = some c → c.phase = .armed → s.cap.desc = some d → d.input = s.cap.input → c.formed + 1 < d.d →
      ∃ t, exec (.tick c1 c2 c3 c4 ext) s = .next t ∧ t.link = s.link ∧
        t.cap.cur.map (fun e => (e.formed, e.groups)) = some (c.formed + 1, addCodes c.formed c.groups codes) ∧
        (fire = false ∨ s.trig.arm ≠ .armed ∨ s.trig.holdoff ≠ none →
          t.trig = u.trig ∧ t.panel = s.panel ∧ t.cap.table = s.cap.table ∧ t.cap.cur.map (·.phase) = some .armed) ∧
        (fire = true → s.trig.arm = .armed → s.trig.holdoff = none → ∀ a, a = accepted true false c d q u →
          t.trig = a.trig ∧ t.panel = a.panel ∧ t.cap.table = a.cap.table ∧
          t.cap.cur.map (fun e => (e.phase, e.remaining)) = some (.postFill, d.lEff - d.t)))

/-- The point that a group of codes makes: its first code in Sample mode, the least and the greatest in Peak mode, and
the mean rounded to nearest, with halves upward, in Mean mode (R70). -/
def Obligations.PointsFollowTheAcquisitionMode : Prop :=
  ∀ (c : Nat) (cs : List Nat), c ≤ 255 → (∀ x ∈ cs, x ≤ 255) → ∀ g, g = cs.foldl addCode ⟨c, c, c, c⟩ →
    pointBytes 0 (cs.length + 1) g = [BitVec.ofNat 8 c] ∧
    (∃ lo hi, pointBytes 1 (cs.length + 1) g = [BitVec.ofNat 8 lo, BitVec.ofNat 8 hi] ∧ lo ∈ c :: cs ∧ hi ∈ c :: cs ∧
      ∀ x ∈ c :: cs, lo ≤ x ∧ x ≤ hi) ∧
    (∃ m, m ≤ 255 ∧ pointBytes 2 (cs.length + 1) g = [BitVec.ofNat 8 m] ∧
      (cs.length + 1) * (2 * m) ≤ 2 * (c :: cs).sum + (cs.length + 1) ∧
      2 * (c :: cs).sum < (cs.length + 1) * (2 * m) + (cs.length + 1))

/-- The derived values of a capture descriptor: the span is 100 × TB.SCALE in ticks, L_eff the smaller of the record
length asked for and the span, D ticks make a point, T points lie before the trigger, and a point takes two bytes in
Peak mode (R67, R68). A channel block is the ring of L_eff × b bytes rounded up to whole bursts; the blocks of a
buffer lie one after another in ascending channel number, the buffers one after another from address 0, two of them
when N is 1 and N otherwise, and together they take the bytes of the capacity requirement (R8, R73). -/
def Obligations.DescriptorDerivesItsLengths : Prop :=
  ∀ (n : Word32) (input : InputSel) (vals : List Int) (d : Descriptor), ValuesInRange vals → d = descriptorOf n input vals →
    d.capNo = n ∧ d.input = input ∧ d.n = (getParam vals 0x54).toNat ∧ d.mode = (getParam vals 0x53).toNat ∧
    (∀ ch, ch ∈ d.channels ↔ 1 ≤ ch ∧ ch ≤ 4 ∧ getParam vals (16 * ch) ≠ 0) ∧
    d.span = 100 * ([1, 2, 5].getD ((getParam vals 0x50).toNat % 3) 0 * 10 ^ ((getParam vals 0x50).toNat / 3)) ∧
    d.lEff = min (1000 * 10 ^ (getParam vals 0x52).toNat) d.span ∧ d.d * d.lEff = d.span ∧
    d.t = min (d.lEff - 1) (d.lEff * (getParam vals 0x51).toNat / 1000) ∧
    d.b = (if getParam vals 0x53 = 1 then 2 else 1) ∧ 100 ≤ d.lEff ∧ d.t < d.lEff ∧
    d.channels.Pairwise (· < ·) ∧
    capacityRequirement vals = (if d.n = 1 then 2 else d.n) * perSegment d ∧
    ∃ block, 64 ∣ block ∧ d.lEff * d.b ≤ block ∧ block < d.lEff * d.b + 64 ∧ perSegment d = d.channels.length * block ∧
      ∀ j r ch, d.channels[r]? = some ch → blockAddr d j ch = j * perSegment d + r * block

/-- Run starts a new capture when the part is stopped and has nothing to resume, resumes a stopped sequence with its
next segment, and does nothing when a capture is under way; its reply says which. A start clears the fail latch and
reports the run state (R67, R83, R90). Rests on the model's choice of log 14. -/
def Obligations.RunStartsResumesOrReports : Prop :=
  ∀ (r : Request) (s : State), InHandover 0x19 r s → s.cap.runTaken = true →
    (s.cap.runState ≠ .stopped → exec .run s = .next (answered s (doneReply r [2]))) ∧
    (s.cap.runState = .stopped →
      (∀ d, s.cap.desc = some d → finishedCount s < d.n → s.cap.settingsDiffer = false → s.cap.maskStopMark = false →
        ∃ t, exec .run s = .next t ∧ RunControlFrame s t ∧ t.link.replies = s.link.replies ++ [doneReply r [1]] ∧
          t.cap.desc = s.cap.desc ∧ t.cap.capNo = s.cap.capNo ∧ t.cap.failLatch = false ∧
          t.cap.runState = (if d.n = 1 then .running else .sequence) ∧ t.ras.runView = t.cap.runState ∧
          t.cap.table.length = s.cap.table.length + 1 ∧
          (t.cap.cur.map fun c => (c.index, c.buffer)) = some (finishedCount s + 1, finishedCount s) ∧
          t.link.notices = (offerLink (.runState t.cap.runState s.cap.capNo (finishedCount s)) s.link).notices) ∧
      ((∀ d, s.cap.desc = some d →
          d.n ≤ finishedCount s ∨ s.cap.settingsDiffer = true ∨ s.cap.maskStopMark = true) →
        ∃ t, exec .run s = .next t ∧ RunControlFrame s t ∧ NewCapture s t ∧ t.cap.input = s.cap.input ∧
          t.link.replies = s.link.replies ++ [doneReply r [0]] ∧ t.cap.failLatch = false ∧
          t.cap.runState = (if getParam s.setup.values 0x54 = 1 then .running else .sequence) ∧
          t.ras.runView = t.cap.runState ∧
          t.link.notices = (offerLink (.runState t.cap.runState (s.cap.capNo + 1) 0) s.link).notices))

/-- Stop drops the segment being filled, with its record, and the part is stopped; it answers the run state before.
The engine loses a dropped segment's arm view, auto timer and pending force. From Finishing the sequence ends with
AcqDone (R84, R90, R91). Rests on the model's choice of log 12. -/
def Obligations.StopDropsTheSegment : Prop :=
  ∀ (r : Request) (s : State), InHandover 0x1A r s → s.cap.runTaken = true →
    (s.cap.runState = .stopped → exec .stop s = .next (answered s (doneReply r [0]))) ∧
    (s.cap.runState ≠ .stopped → ∃ t, exec .stop s = .next t ∧ RunControlFrame s t ∧ t.panel = s.panel ∧
      t.link.replies = s.link.replies ++ [doneReply r [match s.cap.runState with
        | .stopped => 0 | .running => 1 | .sequence => 2 | .finishing => 3]] ∧
      t.cap.runState = .stopped ∧ t.ras = { s.ras with runView := .stopped } ∧ t.cap.cur = none ∧
      t.cap.desc = s.cap.desc ∧ t.cap.capNo = s.cap.capNo ∧ t.cap.serial = s.cap.serial ∧
      (s.cap.cur = none → t.cap.table = s.cap.table ∧ t.trig = s.trig) ∧
      (∀ c, s.cap.cur = some c →
        t.cap.table.map (·.ident) = (s.cap.table.map (·.ident)).filter (fun i => i != c.ident) ∧
        t.trig = (if c.phase = .preFill ∨ c.phase = .armed then
          { s.trig with arm := .idle, auto := none, pendingForce := false } else s.trig)) ∧
      ∀ l, l = offerLink (.runState .stopped s.cap.capNo (finishedCount t)) s.link →
        t.link.notices = (if s.cap.runState = .finishing then
          (offerLink (.acqDone s.cap.capNo 2 (finishedCount t)
            (t.cap.table.filter fun x => x.state == .damaged).length) l).notices else l.notices))

/-- Single on a running capture makes it a sequence of one segment; otherwise it starts a new capture, in a sequence
of ACQ.SEGMENTS, ending the one under way. It answers the capture number and the target, and clears the fail latch
(R67, R85). Rests on the model's choice of log 12. -/
def Obligations.SingleStartsASequence : Prop :=
  ∀ (r : Request) (s : State), InHandover 0x1B r s → s.cap.runTaken = true →
    (∀ d, s.cap.runState = .running → s.cap.desc = some d →
      ∃ t, exec .single s = .next t ∧ t = { s with link := t.link, cap := t.cap, ras := t.ras } ∧
        t.cap = { s.cap with failLatch := false, desc := some { d with n := 1 }, runState := .sequence } ∧
        t.ras = { s.ras with runView := .sequence } ∧
        t.link.replies = s.link.replies ++ [doneReply r (leBytes 4 s.cap.capNo.toNat ++ leBytes 2 1)] ∧
        t.link.notices = (offerLink (.runState .sequence s.cap.capNo (finishedCount s)) s.link).notices) ∧
    (s.cap.runState ≠ .running → ∃ t, exec .single s = .next t ∧ RunControlFrame s t ∧ NewCapture s t ∧
      t.cap.input = s.cap.input ∧ t.cap.failLatch = false ∧ t.cap.runState = .sequence ∧ t.ras.runView = .sequence ∧
      t.link.replies = s.link.replies ++ [doneReply r
        (leBytes 4 (s.cap.capNo + 1).toNat ++ leBytes 2 (getParam s.setup.values 0x54).toNat)] ∧
      ∀ l, l = (if s.cap.runState = .finishing then offerLink (.acqDone s.cap.capNo 2 (finishedCount s)
          (s.cap.table.filter fun x => x.state == .damaged).length) s.link else s.link) →
        t.link.notices = (offerLink (.runState .sequence (s.cap.capNo + 1) 0) l).notices)

/-- SetWatermark answers the watermark before. One that the finished count has already reached is reported at once
with SegmentsReady and disarmed; one above 4096 is refused (R93). -/
def Obligations.SetWatermarkArmsOrReports : Prop :=
  ∀ (r : Request) (s : State) (k : Nat), InHandover 0x1C r s → s.cap.runTaken = true → k < 65536 →
    r.payload = leBytes 2 k →
    (4096 < k → exec .setWatermark s = .next (answered s (refusedReply r 5 [0, 0, 0]))) ∧
    (k ≤ 4096 → (k = 0 ∨ finishedCount s < k) →
      exec .setWatermark s = .next { answered s (doneReply r (leBytes 2 s.cap.watermark)) with
        cap := { s.cap with watermark := k } }) ∧
    (1 ≤ k → k ≤ 4096 → k ≤ finishedCount s → ∃ t, exec .setWatermark s = .next t ∧
      t = { s with cap := { s.cap with watermark := 0 }, link := t.link } ∧
      t.link.replies = s.link.replies ++ [doneReply r (leBytes 2 s.cap.watermark)] ∧
      t.link.notices = (offerLink (.segmentsReady k s.cap.capNo) s.link).notices)

/-- SetInput answers the input before. A change is a capture change: a stopped part marks that its settings differ,
one that is running begins a new capture from the new input, and one that is finishing stops, with AcqDone. An input
above 1 is refused (R72, R87). Rests on the model's choice of log 12. -/
def Obligations.SetInputIsACaptureChange : Prop :=
  ∀ (r : Request) (s : State) (v old : Byte) (i : InputSel), InHandover 0x1D r s → s.cap.runTaken = true → r.payload = [v] →
    old = (if s.cap.input = .adc then 0 else 1) →
    (1 < v.toNat → exec .setInput s = .next (answered s (refusedReply r 5 [0, 0, 0]))) ∧
    (v.toNat ≤ 1 → i = (if v = 0 then .adc else .pattern) →
      (i = s.cap.input → exec .setInput s = .next (answered s (doneReply r [old]))) ∧
      (i ≠ s.cap.input → s.cap.runState = .stopped →
        exec .setInput s = .next { answered s (doneReply r [old]) with
          cap := { s.cap with input := i, settingsDiffer := true } }) ∧
      (i ≠ s.cap.input → (s.cap.runState = .running ∨ s.cap.runState = .sequence) →
        ∃ t, exec .setInput s = .next t ∧ RunControlFrame s t ∧ NewCapture s t ∧ t.cap.input = i ∧
          t.link.replies = s.link.replies ++ [doneReply r [old]] ∧
          t.cap.runState = (if s.cap.runState = .sequence ∨ getParam s.setup.values 0x54 ≠ 1 then .sequence
            else .running)) ∧
      (i ≠ s.cap.input → s.cap.runState = .finishing →
        ∃ t, exec .setInput s = .next t ∧ RunControlFrame s t ∧
          t.cap = { s.cap with input := i, settingsDiffer := true, runState := .stopped } ∧
          t.link.replies = s.link.replies ++ [doneReply r [old]] ∧
          t.link.notices = (offerLink (.acqDone s.cap.capNo 3 (finishedCount s)
              (s.cap.table.filter fun x => x.state == .damaged).length)
            (offerLink (.runState .stopped s.cap.capNo (finishedCount s)) s.link)).notices))

/-- ClearPersist, from the host or from a key, sets the pending clear, and a redraw too when the part is stopped (R29,
R135). A RunStop key stops a part that is not stopped, and starts or resumes one that is; a Single key acts as Single
does. Neither makes a reply (R29, R83 to R85). Rests on the model's choice of log 13. -/
def Obligations.KeysAndClearPersistAct : Prop :=
  (∀ (r : Request) (s : State) (ras : Raster),
    ras = { s.ras with pendingClear := true, redraw := s.ras.redraw || decide (s.ras.runView = .stopped) } →
    (InHandover 0x1E r s → exec .clearPersist s = .next { answered s (doneReply r []) with ras := ras }) ∧
    (∀ n, s.powered = true → s.panel.toRaster = n + 1 →
      exec .keyClearPersist s = .next { s with ras := ras, panel := { s.panel with toRaster := n } })) ∧
  (∀ (s : State) (rest : List CaptureKey), s.powered = true →
    (s.panel.toCapture = .runStop :: rest → ∃ t, exec .runStopToggle s = .next t ∧ RunControlFrame s t ∧
      t.panel.toCapture = rest ∧ t.link.replies = s.link.replies ∧ t.ras.runView = t.cap.runState ∧
      (s.cap.runState ≠ .stopped → t.cap.runState = .stopped ∧ t.cap.cur = none ∧ t.cap.desc = s.cap.desc) ∧
      (s.cap.runState = .stopped → t.cap.failLatch = false ∧
        (t.cap.runState = .running ∨ t.cap.runState = .sequence) ∧
        (canResume s = true → t.cap.desc = s.cap.desc ∧ t.cap.capNo = s.cap.capNo) ∧
        (canResume s = false → NewCapture s t))) ∧
    (s.panel.toCapture = .single :: rest → ∃ t, exec .keySingle s = .next t ∧ RunControlFrame s t ∧
      t.panel.toCapture = rest ∧ t.link.replies = s.link.replies ∧ t.cap.failLatch = false ∧
      t.cap.runState = .sequence ∧ t.ras.runView = .sequence ∧
      (s.cap.runState = .running → t.cap.capNo = s.cap.capNo ∧
        t.cap.desc = s.cap.desc.map fun d => { d with n := 1 }) ∧
      (s.cap.runState ≠ .running → NewCapture s t)))

/-! ## The display -/

/-- WriteOverlay and FillOverlay join the end of the overlay work list, with their rectangle clipped to the screen. A
rectangle wholly off the screen that finds the list empty is done at once, with 0 pixels, and one without width or
height is refused (R156 to R158). A request is written row by row, each row in one write for each 64-byte unit it
touches, left to right, with the indices of its rectangle and the other lanes masked. The writes of the request being
written are placed while no read of a fetch is left to place and the Scan-out queue has a place (R98, R152). The grant
of its last write queues its Done with the number of pixels written, or clears the overlay clearing flag when it is
the power-on clear; then the next request in the list begins, and one wholly off the screen is done as its turn comes
(R156, R157). Rests on the model's choices of logs 25 and 27. -/
def Obligations.OverlayRequestsJoinTheWorkList : Prop :=
  (∀ (r : Request) (s : State) (x y w h : Nat) (tail : List Byte) (cmd : Instr) (size : Nat) (src : OverlaySource),
    x < 65536 → y < 65536 → w < 65536 → h < 65536 →
    r.payload = leBytes 2 x ++ leBytes 2 y ++ leBytes 2 w ++ leBytes 2 h ++ tail →
    (InHandover 0x24 r s ∧ cmd = .writeOverlay ∧ size = 2 ∧ src = .pixels w tail ∨
      ∃ index, InHandover 0x25 r s ∧ tail = [index] ∧ cmd = .fillOverlay ∧ size = 4 ∧ src = .fill index) →
    (1 ≤ w → 1 ≤ h → x < 1280 → y < 800 →
      (∀ j js, s.scan.overlayWork = j :: js → j.granted < jobBursts j) →
      ∃ t, exec cmd s = .next t ∧ t.link = afterDispatch s.link ∧
        t.scan.overlayWork.map (fun j => { j with placed := 0 }) =
          s.scan.overlayWork.map (fun j => { j with placed := 0 }) ++
            [⟨some (r.tag, size), x, y, min w (1280 - x), min h (800 - y), src, 0, 0⟩] ∧
        (∀ job, job = ⟨some (r.tag, size), x, y, min w (1280 - x), min h (800 - y), src, 0, 0⟩ → s.scan.overlayWork = [] →
          (∀ f, s.scan.fetch = some f → f.reads = []) → t.mem.scanQ = s.mem.scanQ ++
            (List.range (min (16 - s.mem.scanQ.length) (jobBursts job))).map (jobWrite job)) ∧
        t.scan = { s.scan with overlayWork := t.scan.overlayWork, fetch := t.scan.fetch } ∧
        t.dram = s.dram ∧ t.cap = s.cap ∧ t.store = s.store ∧ t.setup = s.setup ∧ t.panel = s.panel) ∧
    (1 ≤ w → 1 ≤ h → (1280 ≤ x ∨ 800 ≤ y) → s.scan.overlayWork = [] →
      ∃ t, exec cmd s = .next t ∧ t.link = (answered s (doneReply r (leBytes size 0))).link ∧
        t.scan.overlayWork = [] ∧ t.dram = s.dram) ∧
    (w = 0 ∨ h = 0 → ∃ t, exec cmd s = .next t ∧ t.link = (answered s (refusedReply r 5 [0, 0, 0])).link ∧
      t.scan.overlayWork.length = s.scan.overlayWork.length ∧ t.dram = s.dram)) ∧
  (∀ (j : OverlayJob) (units : Nat), 1 ≤ j.w → units = (j.x + j.w - 1) / 64 - j.x / 64 + 1 → jobBursts j = units * j.h ∧
    ∀ k u first, k < j.h → u < units → first = (j.x / 64 + u) * 64 →
      jobWrite j (k * units + u) = ⟨263246848 + (j.y + k) * 1280 + first, some ((List.range 64).map fun i =>
        if j.x ≤ first + i ∧ first + i < j.x + j.w then some (match j.source with
          | .fill index => index
          | .pixels stride data => data.getD (k * stride + (first + i - j.x)) 0)
        else none)⟩) ∧
  ∀ (s : State) (q : MemReq) (lanes : Lanes) (j : OverlayJob) (off next : List OverlayJob) (place : OverlayJob → Nat),
    s.powered = true → s.mem.refreshing = none → (s.mem.owed = 0 ∨ (48 ≤ s.cap.gather.length ∧ s.mem.owed < 8)) →
    chooseClass s = some .scanOut → s.mem.scanQ.head? = some q → q.addr + 64 ≤ 268435456 → q.write = some lanes →
    s.scan.overlayWork = j :: off ++ next → (∀ f, s.scan.fetch = some f → f.reads = []) →
    place = (fun k => min (16 - s.mem.scanQ.tail.length) (jobBursts k - k.placed)) →
    (j.granted + 1 < jobBursts j → off = [] → ∃ t, exec .memorySlot s = .next t ∧ t.link = s.link ∧
      t.dram = memWriteLanes 0 s.dram q.addr lanes ∧ t.scan.overlayClearing = s.scan.overlayClearing ∧
      t.scan.overlayWork = { j with granted := j.granted + 1, placed := j.placed + place j } :: next ∧
      t.mem.scanQ = s.mem.scanQ.tail ++ (List.range (place j)).map fun i => jobWrite j (j.placed + i)) ∧
    (j.granted + 1 = jobBursts j → (∀ o ∈ off, jobBursts o ≤ o.granted) →
      ∃ t, exec .memorySlot s = .next t ∧ t.dram = memWriteLanes 0 s.dram q.addr lanes ∧
        t.link = { s.link with replies := s.link.replies ++ (j :: off).filterMap fun o => o.reply.map fun p =>
          ⟨0x80, p.1, leBytes p.2 (o.w * o.h), .accepted⟩ } ∧
        t.scan.overlayClearing = (s.scan.overlayClearing && (j :: off).all fun o => o.reply.isSome) ∧
        (next = [] → t.scan.overlayWork = [] ∧ t.mem.scanQ = s.mem.scanQ.tail) ∧
        ∀ k ks, next = k :: ks → k.granted < jobBursts k →
          t.scan.overlayWork = { k with placed := k.placed + place k } :: ks ∧
          t.mem.scanQ = s.mem.scanQ.tail ++ (List.range (place k)).map fun i => jobWrite k (k.placed + i))

/-- WritePalette replaces a run of entries, or is refused when the run would pass entry 255 (R155). SetWaveArea clamps
the origin, answers it and whether it was clamped, and makes it pending (R159). -/
def Obligations.PaletteAndWaveAreaAreSet : Prop :=
  ∀ (r : Request) (s : State),
    (∀ (first : Nat) (cs : List (Byte × Byte × Byte)), InHandover 0x26 r s → first < 256 → 1 ≤ cs.length →
      cs.length ≤ 256 → s.scan.palette.length = 256 →
      r.payload = BitVec.ofNat 8 first :: leBytes 2 cs.length ++ cs.flatMap (fun c => [c.1, c.2.1, c.2.2]) →
      (256 < first + cs.length → exec .writePalette s = .next (answered s (refusedReply r 5 [0, 0, 0]))) ∧
      (first + cs.length ≤ 256 → ∃ palette,
        exec .writePalette s = .next { answered s (doneReply r []) with scan := { s.scan with palette := palette } } ∧
        palette.length = 256 ∧ ∀ i, i < 256 → palette[i]? =
          (if first ≤ i ∧ i < first + cs.length then
            (cs[i - first]?).map fun c => BitVec.ofNat 24 (c.1.toNat * 65536 + c.2.1.toNat * 256 + c.2.2.toNat)
           else s.scan.palette[i]?))) ∧
    (∀ x y : Nat, InHandover 0x27 r s → x < 65536 → y < 65536 → r.payload = leBytes 2 x ++ leBytes 2 y →
      exec .setWaveArea s = .next { answered s (doneReply r (leBytes 2 (min x 280) ++ leBytes 2 (min y 400) ++
          [if 280 < x ∨ 400 < y then 1 else 0])) with
        scan := { s.scan with pendingOrigin := some (min x 280, min y 400) } })

/-- A frame start: a pending origin takes effect, the sets exchange roles when and only when the rasterizer is Ready,
and the frame counter goes up. A pass that was Ready gets its displayed events, which end a finishing sequence when
they show its last segment, with AcqDone displayed, and in the same event a pass starts when there is work for one: a
queued segment, a redraw, a clear, or decay that is due (R82, R88, R116, R117, R131, R149, R150). A pass that starts
latches the display values (R118), and draws the redrawn segments and the queued ones, under Off persistence the
newest alone, the others Skipped (R119, R134). Rests on the model's choice of log 12. -/
def Obligations.FrameStartExchangesAndDisplays : Prop :=
  ∀ (s : State) (due work : Bool) (live take : List Word32), s.powered = true → s.scan.line = 0 →
    due = (getParam s.setup.values 0x70 == 1 && (s.scan.frame + 1).toNat % (getParam s.setup.values 0x71).toNat == 0) →
    live = (s.ras.drawQueue.filter fun n => s.cap.table.any fun x => x.serial == some n && x.state != .filling) →
    work = (live ≠ [] || s.ras.redraw || s.ras.pendingClear || due) →
    take = (if getParam s.setup.values 0x70 = 0 then live.drop (live.length - 1) else live) →
    ∃ t, exec .lineStart s = .next t ∧ t.scan.line = 1 ∧ t.scan.frame = s.scan.frame + 1 ∧ t.scan.sent = [] ∧
      t.scan.origin = s.scan.pendingOrigin.getD s.scan.origin ∧ t.scan.pendingOrigin = none ∧
      t.scan.front = (match s.ras.state, s.scan.front with
        | .ready, .setA => .setB | .ready, .setB => .setA | _, f => f) ∧
      t.scan.palette = s.scan.palette ∧ t.scan.lineBuffer = s.scan.lineBuffer ∧ t.scan.lateLines = s.scan.lateLines ∧
      t.dram = s.dram ∧ t.nv = s.nv ∧ t.store = s.store ∧ t.setup = s.setup ∧ t.panel = s.panel ∧ t.trig = s.trig ∧
      t.mask = s.mask ∧ t.link.replies = s.link.replies ∧
      (∀ p, s.ras.state = .ready → s.ras.pass = some p →
        (∀ rec ∈ t.cap.table, rec.state ≠ .filling → (∃ i ∈ p.drawn, rec.serial = some i.serial) → rec.displayed = true) ∧
        (∀ n, s.cap.runState = .finishing → finalSerial s = some n →
          ((∃ i ∈ p.drawn, i.serial = n) → t.cap.runState = .stopped ∧
            t.link = offerLink (.acqDone s.cap.capNo 0 (finishedCount s)
                (s.cap.table.filter fun x => x.state == .damaged).length)
              (offerLink (.runState .stopped s.cap.capNo (finishedCount s)) s.link)) ∧
          ((∀ i ∈ p.drawn, i.serial ≠ n) → t.cap.runState = .finishing ∧ t.link = s.link))) ∧
      (s.ras.state ≠ .ready ∨ s.cap.runState ≠ .finishing → t.link = s.link ∧ t.cap.runState = s.cap.runState) ∧
      (s.ras.state = .drawing ∨ s.ras.state = .clearing →
        t.ras.state = s.ras.state ∧ t.ras.drawQueue = s.ras.drawQueue ∧ t.cap = s.cap) ∧
      (s.ras.state = .idle ∨ s.ras.state = .ready →
        t.ras.drawQueue = [] ∧
        (work = false → t.ras.state = .idle ∧ (s.ras.state = .idle → t.cap = s.cap)) ∧
        (work = true → t.ras.state = .drawing ∧ t.ras.redraw = false ∧ t.ras.pendingClear = false ∧
          ∃ p, t.ras.pass = some p ∧ p.desc = s.cap.desc ∧ p.drawn = [] ∧
            p.latched = displayValues s.setup.values due s.ras ∧
            t.ras.displayed = (if p.todo = [] then s.ras.displayed else s.cap.desc.map (·.lEff)) ∧
            (∀ n ∈ live, n ∉ take → ∀ rec ∈ t.cap.table, rec.serial = some n → rec.state ≠ .filling → rec.mask = .skipped) ∧
            (take.Nodup → ∀ (top : Nat) (redrawn : List SegRecord),
              (∀ x ∈ s.cap.table, x.state ≠ .filling → x.index ≤ top) →
              (top = 0 ∨ ∃ x ∈ s.cap.table, x.state ≠ .filling ∧ x.index = top) →
              redrawn = (if s.ras.redraw then s.cap.table.filter fun x => x.state == .complete &&
                (getParam s.setup.values 0x76 == 0 || x.index == min (getParam s.setup.values 0x76).toNat top) else []) →
              p.todo.map (fun i => (i.serial, i.taken)) =
                redrawn.map (fun x => (x.serial.getD 0, take.contains (x.serial.getD 0))) ++
                  (take.filter fun n => !(redrawn.map fun x => x.serial.getD 0).contains n).map (fun n => (n, true)))))

/-- The line start of an active line. A line whose fetch has finished is composed: a non-zero overlay index wins, then
in the waveform area the greatest cell of the channels, the lowest channel first, then the graticule, then the area's
background, and outside the area index 1. A line whose fetch has not finished is late: the line buffer is sent again,
the late count goes up, and its reads leave the Scan-out queue. The next line's fetch begins, and its reads are those
of the overlay row and of the channels' rows. With no fetch the line buffer is sent again and nothing is counted. In
the blanking lines nothing is sent, and the last of them begins the fetch of line 0. A line buffer that no line has
filled holds palette entry 1 (R110, R112, R148, R151, R153, R160). -/
def Obligations.ActiveLineIsComposedOrLate : Prop :=
  (∀ (s : State), s.powered = true → 1 ≤ s.scan.line → s.scan.line ≤ 824 → (25 ≤ s.scan.line → s.scan.fetch = none) →
    ∃ t, exec .lineStart s = .next t ∧ t.scan.line = (s.scan.line + 1) % 825 ∧ t.scan.frame = s.scan.frame ∧
      t.scan.front = s.scan.front ∧ t.scan.lineBuffer = s.scan.lineBuffer ∧ t.scan.lateLines = s.scan.lateLines ∧
      t.dram = s.dram ∧ t.link = s.link ∧ t.cap = s.cap ∧
      t.scan.sent = (if s.scan.line < 25 then []
        else s.scan.lineBuffer.getD (List.replicate 1280 (s.scan.palette.getD 1 0))) ∧
      (24 ≤ s.scan.line → s.scan.line < 824 → t.scan.fetch.map (·.line) = some (s.scan.line - 24))) ∧
  ∀ (s : State) (f : Fetch), s.powered = true → 25 ≤ s.scan.line → s.scan.line ≤ 824 → s.scan.fetch = some f →
    s.scan.palette.length = 256 →
    ∃ t, exec .lineStart s = .next t ∧ t.scan.line = (s.scan.line + 1) % 825 ∧ t.scan.frame = s.scan.frame ∧
      t.scan.front = s.scan.front ∧ t.dram = s.dram ∧ t.link = s.link ∧ t.cap = s.cap ∧ t.ras.state = s.ras.state ∧
      t.scan.sent = t.scan.lineBuffer.getD (List.replicate 1280 (s.scan.palette.getD 1 0)) ∧
      (s.scan.line = 824 → t.scan.fetch = none) ∧
      (s.scan.line < 824 → (t.scan.fetch.map fun g => (g.line, g.channels, g.grid, g.origin)) =
        some (s.scan.line - 24, [1, 2, 3, 4].filter (fun n => getParam s.setup.values (16 * n) != 0),
          getParam s.setup.values 0x77, s.scan.origin)) ∧
      (fetchFinished f = false →
        t.scan.lineBuffer = s.scan.lineBuffer ∧ t.scan.lateLines = min 4294967295 (s.scan.lateLines + 1) ∧
        (s.mem.scanQ.filter fun q => q.write.isSome) <+: t.mem.scanQ ∧
        (s.scan.line = 824 → ∀ q ∈ t.mem.scanQ, q.write ≠ none) ∧
        (∀ g, t.scan.fetch = some g →
          (t.mem.scanQ.filter fun q => q.write.isNone).map (·.addr) ++ g.reads =
            fetchReads s.scan g.channels (s.scan.line - 24))) ∧
      (fetchFinished f = true → t.scan.lateLines = s.scan.lateLines ∧
        ∃ pixels, t.scan.lineBuffer = some pixels ∧ pixels.length = 1280 ∧ ∀ x, x < 1280 → ∀ o row col cell inside,
          o = fetchedByte f (263246848 + f.line * 1280 + x) → row = f.line - f.origin.2 → col = x - f.origin.1 →
          inside = decide (f.origin.1 ≤ x ∧ x < f.origin.1 + 1000 ∧ f.origin.2 ≤ f.line ∧ f.line < f.origin.2 + 400) →
          cell = (fun n => fetchedByte f
            ((match s.scan.front with | .setA => 260046848 | .setB => 261646848) + (n - 1) * 400000 + row * 1000 + col)) →
          (o ≠ 0 → pixels[x]? = s.scan.palette[o]?) ∧
          (o = 0 → inside = false → pixels[x]? = s.scan.palette[1]?) ∧
          (∀ n pre post, o = 0 → inside = true → f.channels = pre ++ n :: post → 1 ≤ n → n ≤ 4 → 1 ≤ cell n →
            (∀ k ∈ pre, cell k < cell n) → (∀ k ∈ post, cell k ≤ cell n) →
            pixels[x]? = s.scan.palette[16 * n + cell n / 16]?) ∧
          (o = 0 → inside = true → (∀ n ∈ f.channels, cell n = 0) →
            pixels[x]? = s.scan.palette[if onGraticule f.grid row col then 2 else 1]?))

/-- Where a code lands: 200 − 2 × (code − 128) − position, mirrored by inversion, clipped to rows 0 to 399 with a mark
(R122). The window is L_disp over the greatest zoom value that leaves 100 points, and starts at DISP.HPOS or the last
place it fits (R121). A column spans its points' rows and the row it joins, or in expansion interpolated rows; Dots
hits only ends or points (R123 to R126). A plane is built cleared, copied or decayed by its channel, persistence and
what the pass latched (R120). Decay takes away an eighth of a cell, rounded up, and grading adds the grade to each hit
cell, stopping at 255, and writes no other (R120, R127). A channel is over range when a point of the window has code 0
or 255 (R130). -/
def Obligations.RowsDecayAndGrades : Prop :=
  (∀ (pos : Int) (inv : Bool) (code : Nat) (row : Int), row = 200 - ((if inv then -2 else 2) * ((code : Int) - 128) + pos) →
    ((codeRow pos inv code).row : Int) = max 0 (min 399 row) ∧
    ((codeRow pos inv code).clipTop = true ↔ row < 0) ∧ ((codeRow pos inv code).clipBottom = true ↔ 399 < row)) ∧
  (∀ v : Byte, (decayByte v).toNat = v.toNat * 7 / 8) ∧
  (∀ (hits : List (List (Nat × Nat))) (grade u : Nat) (data : List Byte), (gradeLanes hits grade u data).length = 64 ∧
    ∀ i, i < 64 →
      (cellHit hits (u * 64 + i) = true →
        (gradeLanes hits grade u data)[i]? = some (some (BitVec.ofNat 8 (min 255 ((data.getD i 0).toNat + grade))))) ∧
      (cellHit hits (u * 64 + i) = false → (gradeLanes hits grade u data)[i]? = some none)) ∧
  -- R120
  (∀ (l : Latched) (n : Nat) (on : Bool), l.enable[n - 1]? = some on →
    (planeBuild l n = .cleared ↔ on = false ∨ l.persist = 0 ∨ l.clear = true ∨ l.redraw = true) ∧
    (planeBuild l n = .decayed ↔ on = true ∧ l.clear = false ∧ l.redraw = false ∧ l.persist = 1 ∧ l.decayDue = true)) ∧
  (∀ (s : State) (p : Pass) (n : Nat) (back : PlaneSet), s.ras.ready = [] → s.ras.stage = .build n → s.ras.pass = some p →
    n < 25000 → back = (match s.scan.front with | .setA => .setB | .setB => .setA) →
    (rasterNext s).map (·.1) = some
      (if planeBuild p.latched (n / 6250 + 1) = .cleared then
        ⟨planeSetBase back + 64 * n, some (List.replicate 64 (some 0))⟩
       else ⟨planeSetBase s.scan.front + 64 * n, none⟩) ∧
    ∀ data : List Byte, buildWrite s p.latched (planeSetBase s.scan.front + 64 * n) data =
      ⟨planeSetBase back + 64 * n, some (data.map fun v =>
        some (if planeBuild p.latched (n / 6250 + 1) = .decayed then decayByte v else v))⟩) ∧
  -- R121
  (∀ (s : State) (l : Latched) (lDisp z : Nat), s.ras.displayed = some lDisp → 100 ≤ lDisp → l.zoom.toNat ≤ 15 →
    (∃ i, i ≤ l.zoom.toNat ∧ z = [1, 2, 5].getD (i % 3) 1 * 10 ^ (i / 3)) → 100 * z ≤ lDisp →
    (∀ i, i ≤ l.zoom.toNat → 100 * ([1, 2, 5].getD (i % 3) 1 * 10 ^ (i / 3)) ≤ lDisp →
      [1, 2, 5].getD (i % 3) 1 * 10 ^ (i / 3) ≤ z) →
    passWindow s l = (lDisp / z, min l.hpos.toNat (lDisp - lDisp / z))) ∧
  -- R123 to R126
  (∀ (vector peak : Bool) (w off : Nat) (rows : List PointRows) (j : Nat), off ≤ 1 → 100 ≤ w → off + w ≤ rows.length →
    (∀ p ∈ rows, p.1.row ≤ 399 ∧ p.2.row ≤ 399) → j < 1000 → ∃ (e : Extent) (hits : List (Nat × Nat)),
    (traceColumns vector peak w off rows)[j]? = some (e, hits) ∧ (vector = true → hits = [(e.top, e.bottom)]) ∧
    (1000 ≤ w → ∀ own joining : List TraceRow,
      own = ((List.range w).filter fun i => decide (j * w / 1000 ≤ i) && decide (i < (j + 1) * w / 1000)).flatMap
        (fun i => [(rows.getD (i + off) noRow).1, (rows.getD (i + off) noRow).2]) →
      joining = (if off = 0 ∧ j = 0 then [] else [(rows.getD (j * w / 1000 + off - 1) noRow).2]) →
      Spans e (joining ++ own) ∧
      (vector = false → ∃ d, Spans d own ∧ hits = [(d.top, d.top), (d.bottom, d.bottom)])) ∧
    (∀ i point next, w < 1000 → i * 1000 / w ≤ j → j < (i + 1) * 1000 / w → point = rows.getD (i + off) noRow →
      next = rows.getD (i + 1 + off) point →
      (peak = true → Spans e [point.1, point.2] ∧ (vector = false →
        hits = if j = i * 1000 / w then [(e.top, e.top), (e.bottom, e.bottom)] else [])) ∧
      (peak = false → ∀ m g d before : Nat, m = j - i * 1000 / w → g = (i + 1) * 1000 / w - i * 1000 / w →
        d = (2 * (max next.1.row point.1.row - min next.1.row point.1.row) * m + g) / (2 * g) →
        interpolatedRow w off rows j = (if point.1.row ≤ next.1.row then point.1.row + d else point.1.row - d) ∧
        formingRows w off rows j = (if m = 0 then [point.1] else [point.1, next.1]) ∧
        (vector = false → hits = if m = 0 then [(point.1.row, point.1.row)] else []) ∧
        (before = (if j = 0 then if off = 0 then point.1.row else (rows.getD 0 noRow).2.row
          else interpolatedRow w off rows (j - 1)) →
          e.top = min before (interpolatedRow w off rows j) ∧ e.bottom = max before (interpolatedRow w off rows j)) ∧
        (∀ rowsOf, rowsOf = formingRows w off rows j ++ (if j = 0 then if off = 0 then [] else [(rows.getD 0 noRow).2]
            else formingRows w off rows (j - 1)) →
          (e.clipTop = true ↔ ∃ x ∈ rowsOf, x.clipTop = true) ∧
          (e.clipBottom = true ↔ ∃ x ∈ rowsOf, x.clipBottom = true))))) ∧
  -- R130
  (∀ (s : State) (p : Pass) (d : Descriptor) (ch w first off : Nat) (got : List Byte), p.desc = some d →
    d.b = 1 ∨ d.b = 2 → passWindow s p.latched = (w, first) → off = (if first = 0 then 0 else 1) →
    (off + w) * d.b ≤ got.length →
    ((channelColumns s p ch got).2 = true ↔
      ∃ i, off * d.b ≤ i ∧ i < (off + w) * d.b ∧ (got[i]? = some 0 ∨ got[i]? = some 255)))

/-- The mask checker tests a segment's extents when mask testing is on, the section is present, the table still holds
the segment and its pass drew the source channel. A zone fails when one of its five columns lies outside it or is
clipped. A test is counted, its result is kept in the segment's record, and a failure is reported with MaskFail. With
the Stop action it stops the capture too: the fail latch is set, the segment in flight is dropped, RunState follows,
from Finishing AcqDone, and every queued segment, and every taken one the pass has not drawn, becomes Skipped. When
testing is off or nothing can be tested, nothing is counted or reported (R89, R115, R141 to R145). Once its extents
are taken, a pass goes on with the points of its next segment, or ends: Ready, with the over-range flags of the
channels it drew (R128 to R130). Rests on the model's choices of logs 12, 16 and 24. -/
def Obligations.MaskTestRecordsTheResult : Prop :=
  (∀ (s : State) (serial : Word32) (handed : List (Nat × List Extent)) (source : Nat), s.powered = true →
    s.ras.toMask = some (serial, handed) → source = (getParam s.setup.values 0x81).toNat →
    (getParam s.setup.values 0x80 = 0 ∨ s.setup.mask = none ∨ handed.find? (fun p => p.1 == source + 1) = none ∨
        (∀ rec ∈ s.cap.table, rec.serial = some serial → rec.state = .filling) →
      ∃ t, exec .maskTest s = .next t ∧ t.mask = s.mask ∧ t.cap = s.cap ∧ t.link = s.link ∧ t.dram = s.dram) ∧
    (∀ (zones : List Zone) (ext : List Extent) (fails : List Nat), s.setup.mask = some zones → zones.length = 200 → getParam s.setup.values 0x80 ≠ 0 →
      (∃ rec ∈ s.cap.table, rec.serial = some serial ∧ rec.state ≠ .filling) →
      handed.find? (fun p => p.1 == source + 1) = some (source + 1, ext) →
      fails = ((List.range 200).filter fun z => match zones[z]? with
        | some (Zone.bounded top bottom) => ((ext.drop (5 * z)).take 5).any fun e =>
            decide (e.top < top) || decide (bottom < e.bottom) || e.clipTop || e.clipBottom
        | _ => false) →
      ∃ t, exec .maskTest s = .next t ∧ t.dram = s.dram ∧ t.nv = s.nv ∧ t.setup = s.setup ∧ t.store = s.store ∧
        t.scan.front = s.scan.front ∧ t.link.replies = s.link.replies ∧
        t.mask = ⟨min 4294967295 (s.mask.tested + 1),
          if fails = [] then s.mask.failed else min 4294967295 (s.mask.failed + 1)⟩ ∧
        (fails = [] → t.link = s.link ∧ t.cap.runState = s.cap.runState ∧ t.cap.failLatch = s.cap.failLatch ∧
          ∀ rec ∈ t.cap.table, rec.serial = some serial → rec.state ≠ .filling → rec.mask = .pass) ∧
        (∀ first rest maskFailed, fails = first :: rest → maskFailed = offerLink
            (.maskFail serial source fails.length first (getParam s.setup.values 0x82).toNat) s.link →
          (getParam s.setup.values 0x82 ≠ 1 → t.cap.runState = s.cap.runState ∧ t.cap.failLatch = s.cap.failLatch ∧
            t.link = maskFailed ∧
            ∀ rec ∈ t.cap.table, rec.serial = some serial → rec.state ≠ .filling → rec.mask = .fail) ∧
          (getParam s.setup.values 0x82 = 1 → t.cap.runState = .stopped ∧ t.cap.failLatch = true ∧
            t.cap.maskStopMark = true ∧ t.ras.drawQueue = [] ∧
            (∀ p, t.ras.pass = some p → ∀ i ∈ p.todo, i.taken = false) ∧
            (serial ∉ s.ras.drawQueue → (∀ p, s.ras.pass = some p → ∀ i ∈ p.todo, i.serial ≠ serial) →
              ∀ rec ∈ t.cap.table, rec.serial = some serial → rec.state ≠ .filling → rec.mask = .fail) ∧
            (∀ n, (n ∈ s.ras.drawQueue ∨ ∃ p, s.ras.pass = some p ∧ ∃ i ∈ p.todo, i.taken = true ∧ i.serial = n) →
              ∀ rec ∈ t.cap.table, rec.serial = some n → rec.state ≠ .filling → rec.mask = .skipped) ∧
            (s.cap.runState = .stopped → t.link = maskFailed) ∧
            (s.cap.runState ≠ .stopped → t.cap.cur = none ∧ t.ras.runView = .stopped ∧
              (∀ c, s.cap.cur = some c →
                t.cap.table.map (·.ident) = (s.cap.table.map (·.ident)).filter (fun i => i != c.ident) ∧
                t.trig = (if c.phase = .preFill ∨ c.phase = .armed then
                  { s.trig with arm := .idle, auto := none, pendingForce := false } else s.trig)) ∧
              ∀ l, l = offerLink (.runState .stopped s.cap.capNo (finishedCount t)) maskFailed →
                t.link = (if s.cap.runState = .finishing then offerLink (.acqDone s.cap.capNo 4 (finishedCount t)
                  (t.cap.table.filter fun x => x.state == .damaged).length) l else l)))))) ∧
  ∀ (s : State) (p : Pass), s.powered = true → s.ras.toMask ≠ none → s.ras.stage = .handed → s.ras.pass = some p →
    (p.todo = [] → ∃ t, exec .maskTest s = .next t ∧ t.ras.state = .ready ∧ t.ras.toMask = none ∧
      t.ras.pass.map (·.drawn) = some p.drawn ∧
      t.ras.overRange = [1, 2, 3, 4].map fun n =>
        if n ∈ p.drawnChannels then decide (n ∈ p.overChannels) else s.ras.overRange.getD (n - 1) false) ∧
    (∀ it rest ch more d w first before points, p.todo = it :: rest → p.desc = some d → getParam s.setup.values 0x80 = 0 →
      d.channels.filter (fun n => p.latched.enable.getD (n - 1) false) = ch :: more → passWindow s p.latched = (w, first) →
      before = (if first = 0 then 0 else 1) →
      points = before + w + (if w < 1000 ∧ first + w < d.lEff then 1 else 0) →
      ∃ t, exec .maskTest s = .next t ∧ t.ras.state = s.ras.state ∧ t.ras.stage = .points ch more [] ∧
        t.ras.pass.map (·.todo) = some (it :: rest) ∧
        t.ras.wanted ++ t.ras.reads =
          runReads (blockAddr d it.buffer ch) d.lEff d.b it.start (first - before) points)

/-! ## The memory and the readout unit -/

/-- A memory slot. While a refresh runs, or when no class's head is eligible, it carries nothing; an owed refresh
starts unless the gather queue is past its mark and fewer than eight are owed. Otherwise the slot grants one request:
below the gather queue's mark the first class in priority order that has been passed over 16 times, else the first
eligible class. A head is eligible when its row is open, or its bank does not refresh and the window has room. The
granted request leaves the head of its queue; a read delivers the burst as it stands. The grant opens or closes the
bank by its class's policy, ages the activation window and the pass-over counts, and writes the DRAM (R96, R98 to
R107). Rests on the model's choices of logs 17, 20 and 27. -/
def Obligations.MemorySlotRefreshesGrantsOrIdles : Prop :=
  ∀ (s : State), s.powered = true →
    (∀ due, s.mem.refreshing = some due → ∃ t, exec .memorySlot s = .next t ∧ t.dram = s.dram ∧ t.mem.banks = s.mem.banks ∧
      t.mem.pass = s.mem.pass ∧ t.mem.window = false :: s.mem.window.take 22 ∧ t.mem.refreshing = some due) ∧
    (s.mem.refreshing = none → 1 ≤ s.mem.owed → (s.cap.gather.length < 48 ∨ 8 ≤ s.mem.owed) →
      ∃ t, exec .memorySlot s = .next t ∧ t.dram = s.dram ∧ t.mem.banks = s.mem.banks.map (fun _ => .refreshing) ∧
        t.mem.refreshing = some (s.trig.timestamp + 3500#64) ∧ t.mem.owed = s.mem.owed ∧
        t.mem.window = false :: s.mem.window.take 22) ∧
    (s.mem.refreshing = none → (s.mem.owed = 0 ∨ (48 ≤ s.cap.gather.length ∧ s.mem.owed < 8)) →
      (chooseClass s = none → ∃ t, exec .memorySlot s = .next t ∧ t.dram = s.dram ∧ t.mem.banks = s.mem.banks ∧
        t.mem.pass = s.mem.pass ∧ t.mem.window = false :: s.mem.window.take 22) ∧
      (∀ c q, chooseClass s = some c → classHead s c = some q → q.addr + 64 ≤ 268435456 →
        ∃ t, exec .memorySlot s = .next t ∧
          t.dram = (match q.write with | some lanes => memWriteLanes 0 s.dram q.addr lanes | none => s.dram) ∧
          t.mem.window = (!rowHit s.mem q.addr) :: s.mem.window.take 22 ∧ t.mem.owed = s.mem.owed ∧
          t.mem.refreshing = none ∧
          t.mem.pass = classesByPriority.map (fun k => if k = c then 0 else if classEligible s k then
            min 16 (passCount s.mem k + 1) else 0) ∧
          (c = .capture ∨ c = .scanOut →
            t.mem.banks = s.mem.banks.set (q.addr / 8192 % 8) (.openRow (q.addr / 65536))) ∧
          (c = .raster → t.mem.banks = s.mem.banks.set (q.addr / 8192 % 8)
            (if s.mem.rasterQ.tail.head?.any (fun n => n.addr / 8192 == q.addr / 8192) then .openRow (q.addr / 65536)
             else .closed)) ∧
          (c = .readout → t.mem.banks = s.mem.banks.set (q.addr / 8192 % 8) .closed) ∧
          (c = .capture → t.cap.gather = s.cap.gather.tail) ∧ (c ≠ .capture → t.cap.gather = s.cap.gather) ∧
          (if c = .scanOut then s.mem.scanQ.tail else s.mem.scanQ) <+: t.mem.scanQ ∧
          (if c = .raster then s.mem.rasterQ.tail else s.mem.rasterQ) <+: t.mem.rasterQ ∧
          (if c = .readout then s.mem.readQ.tail else s.mem.readQ) <+: t.mem.readQ ∧
          (∀ data, data = memSlice 0 s.dram q.addr 64 → q.write = none →
            (∀ f, c = .scanOut → s.scan.fetch = some f →
              (t.scan.fetch.map fun g => (g.line, g.data)) = some (f.line, f.data ++ [(q.addr, data)])) ∧
            (∀ ch rest got w ws, c = .raster → s.ras.stage = .points ch rest got → s.ras.wanted = w :: ws →
              s.ras.reads ≠ [] ∨ 2 ≤ s.ras.outstanding →
              t.ras.stage = .points ch rest (got ++ (data.drop w.skip).take w.n)) ∧
            (∀ op w ws, c = .readout → s.rd.inFlight = some op → op.placed = w :: ws → op.todo ≠ [] ∨ ws ≠ [] →
              (t.rd.inFlight.map (·.got)) = some (op.got ++ (data.drop w.skip).take w.n))))) ∧
    (∀ c, (∀ q, classHead s c = some q → ∀ bank, bank = s.mem.banks.getD (q.addr / 8192 % 8) .closed →
        (rowHit s.mem q.addr = true ↔ bank = .openRow (q.addr / 65536)) ∧
        (classEligible s c = true ↔ bank = .openRow (q.addr / 65536) ∨
          bank ≠ .refreshing ∧ (s.mem.window.filter (fun opened => opened)).length < 4)) ∧
      (classHead s c = none → classEligible s c = false)) ∧
    (classHead s .capture = (s.cap.gather.head?.map fun b => ⟨b.addr, some b.lanes⟩) ∧
      classHead s .scanOut = s.mem.scanQ.head? ∧ classHead s .raster = s.mem.rasterQ.head? ∧
      classHead s .readout = s.mem.readQ.head?) ∧
    (∀ c, chooseClass s = some c ↔ classEligible s c = true ∧
      ((s.cap.gather.length < 48 ∧ ∃ k, classEligible s k = true ∧ passCount s.mem k = 16) →
        passCount s.mem c = 16 ∧ ∀ k, classRank k < classRank c → classEligible s k = true → passCount s.mem k ≠ 16) ∧
      (¬ (s.cap.gather.length < 48 ∧ ∃ k, classEligible s k = true ∧ passCount s.mem k = 16) →
        ∀ k, classRank k < classRank c → classEligible s k = false))

/-- A point goes into its channel's burst in assembly, which leaves for the gather queue when its unit is filled or
the ring wraps; a full gather queue drops it and marks its channel damaged (R74 to R76). A tick that completes a point
writes it for every channel (R69). The grant of a segment's last burst completes the segment: it takes the next
serial, is Complete and joins the draw queue, where a 65th serial removes the oldest, whose segment becomes Skipped
(R114), or is Damaged and counted when a burst of it was dropped (R79, R81). Then a Running part begins the next
segment in the other buffer, and a sequence its next one, or goes to Finishing, or to Stopped when its last segment is
Damaged (R82). The grant of a read's last burst answers the read and releases its pin (R189, R191). In Clearing the
grants of zero writes walk through set A and then set B; the last one makes the rasterizer Idle and tells the scan-out
controller that the sets are cleared, with the front set as it was (R136). The last Raster write of a pass whose last
segment is a redrawn one, or whose list is empty, ends the pass: Ready, with the over-range flags of the channels it
drew; a taken last segment is handed to the mask checker first (R129, R130). Rests on the model's choices of logs 14,
16, 24 and 27. -/
def Obligations.LastBurstsCompleteTheirWork : Prop :=
  (∀ (s : State) (d : Descriptor) (c : CurSegment) (ch off : Nat) (bytes : List Byte) (old lanes : Lanes) (b : CapBurst),
    1 ≤ ch → ch ≤ 4 → s.cap.assembly.length = 4 → bytes.length = d.b → d.b = 1 ∨ d.b = 2 → off = c.wpos * d.b →
    old = ((s.cap.assembly.getD (ch - 1) none).map (·.lanes)).getD (List.replicate 64 none) → old.length = 64 →
    lanes = (List.range 64).map (fun i => if off % 64 ≤ i ∧ i < off % 64 + d.b then some (bytes.getD (i - off % 64) 0)
      else old.getD i none) → b = ⟨c.ident, ch, blockAddr d c.buffer ch + off / 64 * 64, lanes⟩ →
    ((off + d.b) % 64 ≠ 0 → c.wpos + 1 ≠ d.lEff → putPoint d c ch bytes s = { s with cap := { s.cap with
      assembly := s.cap.assembly.set (ch - 1) (some b) } }) ∧
    ((off + d.b) % 64 = 0 ∨ c.wpos + 1 = d.lEff →
      (s.cap.gather.length < 64 → putPoint d c ch bytes s = { s with cap := { s.cap with
        assembly := s.cap.assembly.set (ch - 1) none, gather := s.cap.gather ++ [b] } }) ∧
      (64 ≤ s.cap.gather.length → putPoint d c ch bytes s = { s with cap := { s.cap with
        assembly := s.cap.assembly.set (ch - 1) none
        table := s.cap.table.map fun x => if x.ident = c.ident ∧ ch ∉ x.damaged then
          { x with damaged := x.damaged ++ [ch] } else x } }))) ∧
  (∀ (s : State) (c1 c2 c3 c4 : Byte) (ext : Bool) (c : CurSegment) (d : Descriptor) (groups : List Group),
    s.powered = true → s.trig.settings = none → s.cap.cur = some c → c.phase = .preFill → s.cap.desc = some d →
    d.input = .adc → d.d ≤ c.formed + 1 → (c.wpos + 1) % d.lEff ≠ d.t →
    groups = addCodes c.formed c.groups [c1.toNat, c2.toNat, c3.toNat, c4.toNat] →
    ∃ t, exec (.tick c1 c2 c3 c4 ext) s = .next t ∧
      t.cap = { (d.channels.foldl (fun u ch =>
          putPoint d c ch (pointBytes d.mode d.d (groups.getD (ch - 1) ⟨0, 0, 0, 0⟩)) u) s).cap with
        cur := some { c with wpos := (c.wpos + 1) % d.lEff, formed := 0, groups := [] } }) ∧
  ∀ (s : State) (q : MemReq), s.powered = true → s.mem.refreshing = none →
    (s.mem.owed = 0 ∨ (48 ≤ s.cap.gather.length ∧ s.mem.owed < 8)) → q.addr + 64 ≤ 268435456 →
    (∀ b c d rec, chooseClass s = some .capture → s.cap.gather = [b] → q.addr = b.addr → s.cap.cur = some c →
      c.phase = .draining → s.cap.desc = some d → rec ∈ s.cap.table → rec.ident = c.ident →
      (s.cap.table.map (·.ident)).Nodup →
      ∃ t, exec .memorySlot s = .next t ∧ t.cap.gather = [] ∧ t.cap.serial = s.cap.serial + 1 ∧
        (∃ rec' ∈ t.cap.table, rec'.ident = c.ident ∧ rec'.serial = some (s.cap.serial + 1) ∧
          rec'.state = (if rec.damaged = [] then .complete else .damaged)) ∧
        (rec.damaged = [] → t.cap.damagedCount = s.cap.damagedCount ∧
          (s.ras.drawQueue.length < 64 → t.ras.drawQueue = s.ras.drawQueue ++ [s.cap.serial + 1]) ∧
          (64 ≤ s.ras.drawQueue.length → t.ras.drawQueue = s.ras.drawQueue.drop 1 ++ [s.cap.serial + 1] ∧
            ∀ n, s.ras.drawQueue.head? = some n → ∀ x ∈ t.cap.table, x.serial = some n → x.state ≠ .filling →
              x.mask = .skipped)) ∧
        (rec.damaged ≠ [] → t.ras.drawQueue = s.ras.drawQueue ∧
          t.cap.damagedCount = min 4294967295 (s.cap.damagedCount + 1)) ∧
        (s.cap.runState = .running → t.cap.runState = .running ∧ t.cap.table.map (·.ident) = [c.ident, s.cap.nextIdent] ∧
          (t.cap.cur.map fun e => (e.ident, e.index, e.buffer)) = some (s.cap.nextIdent, 1, 1 - c.buffer)) ∧
        (s.cap.runState = .sequence → d.n = 1 → t.cap.cur = none ∧ t.ras.redraw = true ∧
          t.cap.table.map (·.ident) = [c.ident] ∧
          t.cap.runState = (if rec.damaged = [] then .finishing else .stopped)) ∧
        (∀ n, s.cap.runState = .sequence → 2 ≤ d.n → n = finishedCount s + 1 → rec.state = .filling →
          (n < d.n → t.cap.runState = .sequence ∧
            t.cap.table.map (·.ident) = s.cap.table.map (·.ident) ++ [s.cap.nextIdent] ∧
            (t.cap.cur.map fun e => (e.ident, e.index, e.buffer)) = some (s.cap.nextIdent, n + 1, n)) ∧
          (d.n ≤ n → t.cap.cur = none ∧ t.ras.redraw = true ∧
            t.cap.runState = (if rec.damaged = [] then .finishing else .stopped)))) ∧
    (∀ op w, chooseClass s = some .readout → s.mem.readQ.head? = some q → q.write = none → s.rd.inFlight = some op →
      op.placed = [w] → op.todo = [] → s.rd.wait = [] →
      ∃ t, exec .memorySlot s = .next t ∧ t.dram = s.dram ∧ t.rd = ⟨none, none, []⟩ ∧
        t.link.replies = s.link.replies ++ [⟨0x80, op.req.tag,
          leBytes 4 op.req.serial.toNat ++ leBytes 1 op.req.channel ++ leBytes 4 op.req.first ++
            leBytes 2 op.req.count ++ leBytes 1 op.b ++ [if op.channelDamaged then 1 else 0] ++
            (op.got ++ ((memSlice 0 s.dram q.addr 64).drop w.skip).take w.n), .accepted⟩]) ∧
    (∀ lanes, chooseClass s = some .raster → s.mem.rasterQ.head? = some q → q.write = some lanes → s.ras.ready = [] →
      (∀ n m, s.ras.stage = .clear n → n < 50000 ∨ 2 ≤ s.ras.outstanding →
        m = min (16 - s.mem.rasterQ.tail.length) (50000 - n) →
        ∃ t, exec .memorySlot s = .next t ∧ t.dram = memWriteLanes 0 s.dram q.addr lanes ∧ t.link = s.link ∧
          t.ras = { s.ras with stage := .clear (n + m), outstanding := s.ras.outstanding - 1 + m } ∧
          t.scan.planesCleared = s.scan.planesCleared ∧ t.mem.rasterQ = s.mem.rasterQ.tail ++
            (List.range m).map fun i => ⟨260046848 + 64 * (n + i), some (List.replicate 64 (some 0))⟩) ∧
      (∀ n, s.ras.stage = .clear n → 50000 ≤ n → s.ras.outstanding = 1 →
        ∃ t, exec .memorySlot s = .next t ∧ t.dram = memWriteLanes 0 s.dram q.addr lanes ∧ t.link = s.link ∧
          t.ras = { s.ras with state := .idle, stage := .none, outstanding := 0 } ∧
          t.scan.planesCleared = true ∧ t.scan.front = s.scan.front) ∧
      (∀ p flags, s.ras.pass = some p → s.ras.outstanding = 1 → flags = [1, 2, 3, 4].map (fun n =>
          if n ∈ p.drawnChannels then decide (n ∈ p.overChannels) else s.ras.overRange.getD (n - 1) false) →
        (∀ n, s.ras.stage = .build n → 25000 ≤ n → p.todo = [] →
          ∃ t, exec .memorySlot s = .next t ∧ t.dram = memWriteLanes 0 s.dram q.addr lanes ∧ t.link = s.link ∧
            t.scan.front = s.scan.front ∧
            t.ras = { s.ras with state := .ready, stage := .none, outstanding := 0, overRange := flags }) ∧
        (∀ it ch hits, s.ras.stage = .grade ch [] hits → s.ras.reads = [] → p.todo = [it] →
          ∃ t, exec .memorySlot s = .next t ∧ t.dram = memWriteLanes 0 s.dram q.addr lanes ∧ t.link = s.link ∧
            t.scan.front = s.scan.front ∧ t.cap = s.cap ∧
            (it.taken = false → t.ras = { s.ras with
              state := .ready, stage := .none, outstanding := 0, overRange := flags
              pass := some { p with todo := [], drawn := p.drawn ++ [it] } }) ∧
            (it.taken = true → t.ras = { s.ras with
              stage := .handed, outstanding := 0, toMask := some (it.serial, p.extents)
              pass := some { p with todo := [], drawn := p.drawn ++ [it] } }))))

/-- GetSegments answers the descriptor's summary and 25 bytes for each record whose index it asks for, and changes
nothing; an index outside 1..4096 or a count outside 1..64 is refused (R186). ReadWave is refused on arrival by its
fields, waits behind a read in flight, or starts: then the first failing check refuses it, or its channel block is
pinned and its bursts are placed (R187 to R190). -/
def Obligations.SegmentsAreReportedAndReadsStart : Prop :=
  ∀ (r : Request) (s : State),
    (∀ first count, InHandover 0x34 r s → first < 65536 → count < 256 →
      r.payload = leBytes 2 first ++ [BitVec.ofNat 8 count] →
      (first < 1 ∨ 4096 < first ∨ count < 1 ∨ 64 < count →
        exec .getSegments s = .next (answered s (refusedReply r 5 [0, 0, 0]))) ∧
      (1 ≤ first → first ≤ 4096 → 1 ≤ count → count ≤ 64 →
        (s.cap.desc = none → exec .getSegments s = .next (answered s (doneReply r (List.replicate 40 0)))) ∧
        (∀ d recs, s.cap.desc = some d →
          recs = s.cap.table.filter (fun x => decide (first ≤ x.index) && decide (x.index < first + count)) →
          exec .getSegments s = .next (answered s (doneReply r
            ([1] ++ leBytes 4 d.capNo.toNat ++
              [channelFlags d.channels, BitVec.ofNat 8 d.tbScale, BitVec.ofNat 8 d.mode, BitVec.ofNat 8 d.b] ++
              leBytes 4 d.lEff ++ leBytes 8 d.d ++ leBytes 4 d.t ++ leBytes 2 d.n ++
              [if d.input = .adc then 0 else 1] ++ d.scales.map (BitVec.ofNat 8) ++ d.couplings.map (BitVec.ofNat 8) ++
              [BitVec.ofNat 8 (flagBits (d.bwLimits.map (· != 0)))] ++ leBytes 2 (finishedCount s) ++
              leBytes 1 recs.length ++
              recs.flatMap (fun x =>
                leBytes 2 x.index ++ leBytes 4 (x.serial.getD 0).toNat ++ leBytes 2 x.buffer ++
                [match x.state with | .filling => (0 : Byte) | .complete => 1 | .damaged => 2, channelFlags x.damaged] ++
                leBytes 4 (x.start.getD 0) ++ leBytes 8 (x.trigTime.getD 0).toNat ++
                [BitVec.ofNat 8 (x.trigTime.isSome.toNat + 2 * x.forced.toNat),
                 match x.mask with | .unchecked => (0 : Byte) | .pass => 1 | .fail => 2 | .skipped => 3,
                 if x.displayed then 1 else 0])))))) ) ∧
    (∀ serial channel first count flags req, InHandover 0x35 r s → channel < 256 → first < 4294967296 → count < 65536 →
      flags < 256 →
      r.payload = leBytes 4 (BitVec.toNat serial) ++ leBytes 1 channel ++ leBytes 4 first ++ leBytes 2 count ++ leBytes 1 flags →
      req = ⟨r.tag, serial, channel, first, count, decide (flags = 1)⟩ →
      (3 < channel ∨ 1 < flags ∨ count = 0 ∨ 2048 < count → ∃ t, exec .readWave s = .next t ∧
        t.link = (answered s (refusedReply r 5 [0, 0, 0])).link ∧ t.rd.wait = s.rd.wait ∧ t.dram = s.dram) ∧
      (channel ≤ 3 → flags ≤ 1 → 1 ≤ count → count ≤ 2048 →
        (s.rd.inFlight ≠ none ∨ s.rd.wait ≠ [] → ∃ t, exec .readWave s = .next t ∧ t.link = afterDispatch s.link ∧
          t.rd.wait = s.rd.wait ++ [req] ∧ t.dram = s.dram) ∧
        (s.rd.inFlight = none → s.rd.wait = [] →
          (s.cap.desc = none ∨ (∀ x ∈ s.cap.table, x.serial = some serial → x.state = .filling) →
            ∃ t, exec .readWave s = .next t ∧ t.link = (answered s (refusedReply r 13 [0, 0, 0])).link ∧
              t.rd.inFlight = none) ∧
          (∀ d x, s.cap.desc = some d →
            s.cap.table.find? (fun x => x.serial == some serial && x.state != .filling) = some x →
            ∃ t, exec .readWave s = .next t ∧ t.dram = s.dram ∧ t.cap = s.cap ∧
              (channel + 1 ∉ d.channels ∨ (d.b = 2 ∧ 1024 < count) →
                t.link = (answered s (refusedReply r 5 [0, 0, 0])).link) ∧
              (channel + 1 ∈ d.channels → (d.b = 2 → count ≤ 1024) → d.lEff < first + count →
                t.link = (answered s (refusedReply r 14 [0, 0, 0])).link) ∧
              (channel + 1 ∈ d.channels → (d.b = 2 → count ≤ 1024) → first + count ≤ d.lEff → x.state = .damaged →
                flags = 0 → t.link = (answered s (refusedReply r 15 [0, 0, 0])).link) ∧
              (channel + 1 ∈ d.channels → (d.b = 2 → count ≤ 1024) → first + count ≤ d.lEff →
                (x.state = .complete ∨ flags = 1) →
                t.link = afterDispatch s.link ∧
                t.rd.pin = some (x.buffer * perSegment d, (x.buffer + 1) * perSegment d - 1) ∧
                (t.rd.inFlight.map fun o => (o.req, o.b, o.channelDamaged, o.placed ++ o.todo, o.got)) =
                  some (req, d.b, decide (channel + 1 ∈ x.damaged),
                    runReads (blockAddr d x.buffer (channel + 1)) d.lEff d.b (x.start.getD 0) first count, []))))))

/-- The bursts read for a run of points give exactly the points' bytes, in record order, round the ring of the block
(R74, R128, R190). -/
def Obligations.RunReadsGiveThePointsInRecordOrder : Prop :=
  ∀ (m : Memory) (base lEff b start first count : Nat), 0 < lEff → 1 ≤ b → b ≤ 2 → start < lEff → first + count ≤ lEff →
    (runReads base lEff b start first count).flatMap (fun w => wantedBytes w (memSlice 0 m w.addr 64)) =
      (List.range (count * b)).map fun i => memRead 0 m (base + (start + first + i / b) % lEff * b + i % b)

/-- What each other timer does when it expires. The frame timer discards the frame and counts a timeout fault,
offering LinkFault; a quick timer resets its knob's acceleration and keeps the transition count; the Triggered pulse
ends; the refresh interval owes one more refresh, up to eight, and restarts; the end of a refresh closes every bank
and owes one less, unless a soft reset overtook it (R33, R41, R106, R108, R112, R196, R197). Rests on the model's
choice of log 10. -/
def Obligations.TimerExpiriesDoTheirPart : Prop :=
  ∀ (s : State) (due : Tick), s.powered = true → due ≤ s.trig.timestamp →
    (∀ bytes, s.link.asm = some ⟨bytes, due⟩ → ∃ t, exec .frameTimeout s = .next t ∧
      t = { s with link := t.link } ∧ t.link = offerLink (.linkFault 0 0 1 0) { s.link with
        asm := none, timeoutFaults := min 4294967295 (s.link.timeoutFaults + 1) }) ∧
    (∀ i k, i < 8 → s.panel.knobs[i]? = some k → k.quick = some due →
      exec (.quickTimerExpiry i) s = .next { s with panel := { s.panel with
        knobs := s.panel.knobs.set i { k with run := 0, mult := 1, quick := none } } }) ∧
    (s.panel.triggered = some due →
      exec .triggeredPulseExpiry s = .next { s with panel := { s.panel with triggered := none } }) ∧
    (s.mem.intervalDue = due → exec .refreshIntervalExpiry s = .next { s with mem := { s.mem with
      owed := min 8 (s.mem.owed + 1), intervalDue := due + 78000#64 } }) ∧
    (s.mem.refreshing = some due → exec .refreshCompletion s = .next { s with mem := { s.mem with
      banks := s.mem.banks.map (fun _ => .closed), refreshing := none, afterReset := false
      owed := if s.mem.afterReset then s.mem.owed else s.mem.owed - 1 } })

/-! ## The setup store -/

/-- An idle store starts a request that writes a record at once: Save a Setup record of the live setup, Delete a
Deletion record, Protect and ImportSlot a copy of a record with new flags or sequence, SetPowerOn a Control record,
each with the next sequence. It is placed at the end of the Active sector, in an Erased sector, or after a reclaim
(R169, R170). Nothing is answered until the program completes, and the NV area is not yet changed (R165, R173, R176,
R177, R180, R181). While an operation is in flight, or before the power-on load, a request that passes its arrival
checks takes a host place, and nothing else happens; a Save takes its snapshot then, once the setup is loaded (R171,
R173). -/
def Obligations.StoreRequestsBeginProgramming : Prop :=
  (∀ (r : Request) (s : State) (slot : Nat), 4 ≤ slot → slot ≤ 63 → CanWrite s →
    (∀ option label, InHandover 0x28 r s → option ≤ 1 → slotProtected s slot = false →
      (r.payload = [BitVec.ofNat 8 slot, BitVec.ofNat 8 option] ∧ label = none ∨
        ∃ l, l.length = 32 ∧ r.payload = BitVec.ofNat 8 slot :: BitVec.ofNat 8 option :: l ∧ label = some l) →
      ∀ snapshot record, snapshot = (s.setup.values, if option = 1 then s.setup.mask else none) →
        record = setupRecord slot s.store.seqCounter false snapshot.1 snapshot.2 label →
        ∃ t, exec .save s = .next t ∧
          BeginsWriting r.tag (.save slot (decide (option = 1)) label (some snapshot)) record s t) ∧
    (∀ loc seq len hm lb, InHandover 0x2A r s → r.payload = [BitVec.ofNat 8 slot] →
      slotEntry s slot = .present loc seq len false hm lb →
      ∃ t, exec .delete s = .next t ∧
        BeginsWriting r.tag (.delete slot) (deletionRecord slot s.store.seqCounter) s t) ∧
    (∀ loc seq len hm lb prot flag old record, InHandover 0x2B r s →
      r.payload = [BitVec.ofNat 8 slot, if flag then 1 else 0] → slotEntry s slot = .present loc seq len prot hm lb →
      prot ≠ flag → readRecord s loc = some old →
      record = restamp old (recFlags old / 2 * 2 + flag.toNat) s.store.seqCounter →
      ∃ t, exec .protect s = .next t ∧ BeginsWriting r.tag (.protect slot flag) record s t) ∧
    (∀ record, InHandover 0x2E r s → isIntact r.payload = true → recKind r.payload = 1 → recSlot r.payload = slot →
      slotProtected s slot = false → record = restamp r.payload (recFlags r.payload) s.store.seqCounter →
      ∃ t, exec .importSlot s = .next t ∧ BeginsWriting r.tag (.importSlot r.payload) record s t) ∧
    (∀ chosen, InHandover 0x2F r s → chosen ≤ 63 → r.payload = [BitVec.ofNat 8 chosen] →
      ∃ t, exec .setPowerOn s = .next t ∧
        BeginsWriting r.tag (.setPowerOn chosen) (controlRecord chosen s.store.seqCounter) s t)) ∧
  -- R177: a flag that is there already needs no Spare and no sequence
  (∀ (r : Request) (s : State) (slot : Nat) loc seq len hm lb (flag : Bool), InHandover 0x2B r s → 4 ≤ slot → slot ≤ 63 →
    r.payload = [BitVec.ofNat 8 slot, if flag then 1 else 0] → slotEntry s slot = .present loc seq len flag hm lb →
    s.setup.loadApplied = true → s.store.queue = [] → s.store.inFlight = none →
    exec .protect s = .next (answered s (doneReply r (leBytes 4 seq ++ [0])))) ∧
  -- R171
  ∀ (r : Request) (s : State) (slot n : Nat) (cmd : Instr) (op : StoreOp), 4 ≤ slot → slot ≤ 63 →
    s.store.inFlight ≠ none ∨ s.setup.loadApplied = false → (s.store.queue.filter fun q => !isPanelOp q).length < 4 →
    (InHandover 0x28 r s ∧ cmd = .save ∧ n ≤ 1 ∧ (∃ label,
        (r.payload = [BitVec.ofNat 8 slot, BitVec.ofNat 8 n] ∧ label = none ∨
          ∃ l, l.length = 32 ∧ r.payload = BitVec.ofNat 8 slot :: BitVec.ofNat 8 n :: l ∧ label = some l) ∧
        op = .save slot (decide (n = 1)) label (if s.setup.loadApplied then
          some (s.setup.values, if n = 1 then s.setup.mask else none) else none)) ∨
      InHandover 0x29 r s ∧ cmd = .recall ∧ r.payload = [BitVec.ofNat 8 slot] ∧ op = .recall slot ∨
      InHandover 0x2A r s ∧ cmd = .delete ∧ r.payload = [BitVec.ofNat 8 slot] ∧ op = .delete slot ∨
      InHandover 0x2B r s ∧ cmd = .protect ∧ n ≤ 1 ∧ r.payload = [BitVec.ofNat 8 slot, BitVec.ofNat 8 n] ∧
        op = .protect slot (decide (n = 1)) ∨
      InHandover 0x2C r s ∧ cmd = .listSlots ∧ 1 ≤ n ∧ n ≤ 32 ∧ slot + n ≤ 64 ∧
        r.payload = [BitVec.ofNat 8 slot, BitVec.ofNat 8 n] ∧ op = .listSlots slot n ∨
      InHandover 0x2D r s ∧ cmd = .exportSlot ∧ r.payload = [BitVec.ofNat 8 slot] ∧ op = .exportSlot slot ∨
      InHandover 0x2E r s ∧ cmd = .importSlot ∧ isIntact r.payload = true ∧ recKind r.payload = 1 ∧
        recSlot r.payload = slot ∧ op = .importSlot r.payload ∨
      InHandover 0x2F r s ∧ cmd = .setPowerOn ∧ r.payload = [BitVec.ofNat 8 slot] ∧ op = .setPowerOn slot) →
    exec cmd s = .next { s with
      link := afterDispatch s.link, store := { s.store with queue := s.store.queue ++ [⟨r.tag, op⟩] } }

/-- What the store refuses, changing nothing: a slot above 63, an option or flag above 1, a factory slot, a request
that finds no free host place, a protected or an empty slot, and a record that Save, Delete, Protect, ImportSlot or
SetPowerOn would write when no sequence or no Spare is left (R163, R165, R168, R171, R173, R176, R177, R181). An
ImportSlot whose payload is no intact Setup record of a slot 0 to 63 is refused with BAD_RECORD, one of a factory or a
protected slot with PROTECTED (R180). Rests on the model's choices of logs 21 and 23. -/
def Obligations.StoreRequestsAreRefused : Prop :=
  (∀ (r : Request) (s : State) (cmd : Instr) (slot : Nat) (rest : List Byte) (out : Nat → Host.Outcome State Fault Refusal),
    out = (fun code => .next (answered s (refusedReply r code [0, 0, 0]))) → slot < 256 →
    r.payload = BitVec.ofNat 8 slot :: rest →
    (InHandover 0x28 r s ∧ cmd = .save ∧ (rest.length = 1 ∨ rest.length = 33) ∨
      InHandover 0x29 r s ∧ cmd = .recall ∧ rest = [] ∨ InHandover 0x2A r s ∧ cmd = .delete ∧ rest = [] ∨
      InHandover 0x2B r s ∧ cmd = .protect ∧ rest.length = 1 ∨ InHandover 0x2D r s ∧ cmd = .exportSlot ∧ rest = [] ∨
      InHandover 0x2F r s ∧ cmd = .setPowerOn ∧ rest = []) →
    (63 < slot → exec cmd s = out 5) ∧
    (slot < 4 → cmd = .save ∨ cmd = .delete ∨ cmd = .protect → exec cmd s = out 7) ∧
    (4 ≤ slot → slot ≤ 63 → cmd = .save ∨ cmd = .protect → 1 < byteAt rest 0 → exec cmd s = out 5) ∧
    (4 ≤ slot → slot ≤ 63 → byteAt rest 0 ≤ 1 → 4 ≤ (s.store.queue.filter fun q => !isPanelOp q).length →
      exec cmd s = out 6) ∧
    (4 ≤ slot → slot ≤ 63 → byteAt rest 0 ≤ 1 → s.setup.loadApplied = true → s.store.queue = [] →
      s.store.inFlight = none →
      (slotProtected s slot = true → cmd = .save ∨ cmd = .delete → exec cmd s = out 7) ∧
      (∀ d, slotEntry s slot = .empty d → cmd = .recall ∨ cmd = .delete ∨ cmd = .protect ∨ cmd = .exportSlot →
        exec cmd s = out 8) ∧
      (∀ loc seq len prot hm lb, slotEntry s slot = .present loc seq len prot hm lb → readRecord s loc = none →
        cmd = .recall ∨ cmd = .exportSlot ∨ cmd = .protect ∧ decide (byteAt rest 0 = 1) ≠ prot → exec cmd s = out 9) ∧
      (findSector (inState .spare) s.store.sectors = none ∨ 4294967295 < s.store.seqCounter →
        (cmd = .save ∨ cmd = .setPowerOn → exec cmd s = out 7) ∧
        (∀ loc seq len prot hm lb, slotEntry s slot = .present loc seq len prot hm lb →
          cmd = .delete ∨ cmd = .protect ∧ decide (byteAt rest 0 = 1) ≠ prot ∧ readRecord s loc ≠ none →
          exec cmd s = out 7)))) ∧
  ∀ (r : Request) (s : State) (out : Nat → Host.Outcome State Fault Refusal), InHandover 0x2E r s →
    out = (fun code => .next (answered s (refusedReply r code [0, 0, 0]))) →
    (isIntact r.payload = false ∨ recKind r.payload ≠ 1 ∨ 63 < recSlot r.payload → exec .importSlot s = out 9) ∧
    (isIntact r.payload = true → recKind r.payload = 1 →
      (recSlot r.payload < 4 → exec .importSlot s = out 7) ∧
      (4 ≤ recSlot r.payload → recSlot r.payload ≤ 63 →
        (4 ≤ (s.store.queue.filter fun q => !isPanelOp q).length → exec .importSlot s = out 6) ∧
        (s.setup.loadApplied = true → s.store.queue = [] → s.store.inFlight = none →
          slotProtected s (recSlot r.payload) = true ∨ findSector (inState .spare) s.store.sectors = none ∨
            4294967295 < s.store.seqCounter → exec .importSlot s = out 7)))

/-- The end of a program makes the record live: the NV area holds it at its place and is unchanged elsewhere, the slot
or the power-on choice refers to it, the sequence counter goes up, and the request is answered with its sequence,
unless a soft reset took its reply away (R165, R169, R173, R176, R177, R180, R181, R184). The next operation of the
queue starts then (R171). The end of a reclaim's copy moves the references and the live bytes to it, and the next copy
or the victim's erase begins; the end of the erase leaves the victim erased, swaps the roles and programs the waiting
record (R170). Rests on the model's choice of log 10. -/
def Obligations.NvCompletionsMakeRecordsLive : Prop :=
  (∀ (s : State) (f : InFlight), s.powered = true → s.store.inFlight = some f → s.store.queue = [] →
    s.store.rebuildErase = none → Memory.wf 0xFF s.nv →
    (∀ sector offset, f.stage = .programming sector offset →
      ∃ t, exec .programCompletion s = .next t ∧ t = { s with nv := t.nv, store := t.store, link := t.link } ∧
        NvSameOutside (sector * 4096 + offset) f.record.length s t ∧
        (∀ i, i < f.record.length → some (memRead 0xFF t.nv (sector * 4096 + offset + i)) = f.record[i]?) ∧
        t.store.inFlight = none ∧ t.store.queue = [] ∧ t.store.seqCounter = s.store.seqCounter + 1 ∧
        t.store.sectors.map (fun x => (x.state, x.used)) = s.store.sectors.map (fun x => (x.state, x.used)) ∧
        (f.silent = true → t.link = s.link) ∧ t.link.notices = s.link.notices ∧
        (∀ seq place, seq = leBytes 4 (recSeq f.record) → place = entryOf (.nv sector offset) f.record →
          (∀ slot m l x, f.op.op = .save slot m l x → t.store.slots = s.store.slots.set slot place ∧
            (f.silent = false → t.link.replies = s.link.replies ++
              [⟨0x80, f.op.tag, seq ++ [if f.reclaimed then 1 else 0], .accepted⟩])) ∧
          (∀ slot, f.op.op = .delete slot →
            t.store.slots = s.store.slots.set slot (.empty (some (sector, offset))) ∧
            (f.silent = false → t.link.replies = s.link.replies ++ [⟨0x80, f.op.tag, seq, .accepted⟩])) ∧
          (∀ slot b, f.op.op = .protect slot b → t.store.slots = s.store.slots.set slot place ∧
            (f.silent = false → t.link.replies = s.link.replies ++ [⟨0x80, f.op.tag, seq ++ [1], .accepted⟩])) ∧
          (∀ rec, f.op.op = .importSlot rec → t.store.slots = s.store.slots.set (recSlot f.record) place ∧
            (f.silent = false → t.link.replies = s.link.replies ++
              [⟨0x80, f.op.tag, BitVec.ofNat 8 (recSlot f.record) :: seq, .accepted⟩])) ∧
          (∀ slot, f.op.op = .setPowerOn slot → t.store.slots = s.store.slots ∧ t.store.powerOnSlot = slot ∧
            t.store.powerOnLoc = some (sector, offset) ∧
            (f.silent = false → t.link.replies = s.link.replies ++ [⟨0x80, f.op.tag, seq, .accepted⟩])))) ∧
    (∀ victim spare x dest rest, f.stage = .copying victim spare x dest rest → s.store.sectors.length = 32 →
      victim < 32 → spare < 32 → victim ≠ spare →
      ∃ t, exec .programCompletion s = .next t ∧ t = { s with nv := t.nv, store := t.store } ∧
        NvSameOutside (spare * 4096 + dest) x.len s t ∧
        (∀ i, i < x.len → memRead 0xFF t.nv (spare * 4096 + dest + i) = memRead 0xFF s.nv (victim * 4096 + x.offset + i)) ∧
        t.store.slots.length = s.store.slots.length ∧ t.store.seqCounter = s.store.seqCounter ∧
        (∀ (i : Nat) (e : SlotEntry), s.store.slots[i]? = some e → t.store.slots[i]? = some (match e with
          | .present loc seq len prot hm lb =>
            .present (if loc = .nv victim x.offset then .nv spare dest else loc) seq len prot hm lb
          | .empty d => .empty (if d = some (victim, x.offset) then some (spare, dest) else d))) ∧
        t.store.powerOnLoc = (if s.store.powerOnLoc = some (victim, x.offset) then some (spare, dest)
          else s.store.powerOnLoc) ∧
        (sectorRow t.store.sectors spare).live = (sectorRow s.store.sectors spare).live + x.len ∧
        (sectorRow t.store.sectors victim).live = (sectorRow s.store.sectors victim).live - x.len ∧
        (rest = [] → t.store.inFlight = some { f with stage := .erasing victim (some spare) }) ∧
        (∀ y ys, rest = y :: ys →
          t.store.inFlight = some { f with
            stage := .copying victim spare y (sectorRow s.store.sectors spare).used ys } ∧
          (sectorRow t.store.sectors spare).used = (sectorRow s.store.sectors spare).used + y.len)) ∧
    (∀ victim spare, f.stage = .erasing victim spare → s.store.sectors.length = 32 → victim < 32 →
      f.record.length ≤ 1094 → findSector (inState .active) s.store.sectors = none →
      (∀ k, spare = some k → k < 32 ∧ k ≠ victim ∧ (sectorRow s.store.sectors k).used + f.record.length ≤ 4096) →
      ∃ t, exec .eraseCompletion s = .next t ∧ t = { s with nv := t.nv, store := t.store } ∧
        NvSameOutside (victim * 4096) 4096 s t ∧
        (∀ i, i < 4096 → memRead 0xFF t.nv (victim * 4096 + i) = 0xFF) ∧
        (spare = none → sectorRow t.store.sectors victim = ⟨.active, f.record.length, 0⟩ ∧
          t.store.inFlight = some { f with stage := .programming victim 0 }) ∧
        (∀ k row, spare = some k → row = sectorRow s.store.sectors k →
          sectorRow t.store.sectors victim = ⟨.spare, 0, 0⟩ ∧
          sectorRow t.store.sectors k = ⟨.active, row.used + f.record.length, row.live⟩ ∧
          t.store.inFlight = some { f with stage := .programming k row.used }))) ∧
  -- R171: the next operation starts at the end of the one before it
  ∀ (s : State) (f : InFlight) (sector offset chosen slot k : Nat) (tag : Byte) (rest : List QueuedOp)
    (seq len : Nat) (prot hm : Bool) (lb : Option (List Byte)) (rec : List Byte), s.powered = true →
    s.setup.loadApplied = true → s.store.inFlight = some f → f.stage = .programming sector offset →
    f.op.op = .setPowerOn chosen → s.store.queue = ⟨tag, .recall slot⟩ :: rest →
    slotEntry s slot = .present (.factory k) seq len prot hm lb → readRecord s (.factory k) = some rec →
    ∃ t, exec .programCompletion s = .next t ∧ t.store.queue = rest ∧ t.store.powerOnSlot = chosen ∧
      t.store.inFlight = some ⟨⟨tag, .recall slot⟩, [], false, false, .handed (recChangeSet rec)⟩

/-- The power-up rebuild makes the tables from the NV area: each sector's state, used and live bytes, the winner of
each slot and the power-on choice, the copies used, the sequence counter and the Spare, which it may have to erase
first (R165 to R168). Then the power-on choice is loaded, or slot 0 with the fallback flag, the four front-end words
are emitted, the settle timer starts, the panel scans, and the power-on Run begins a capture in Holding (R24, R26,
R94). Of an erased NV area, sector 0 becomes the Spare and the factory defaults are loaded (R163). The same end comes
when the rebuild has had to erase a sector first. A request on the setup before the load, or of the capture before the
power-on Run, waits, and is served in its order then (R24, R94). Rests on the model's choices of logs 12, 18 and 26.
-/
def Obligations.RebuildLoadsThePowerOnSetup : Prop :=
  (∀ (s : State) (ws cs : List Request), s.powered = true → s.setup = { setupAtPowerOn with waiting := ws } →
    s.cap = { captureAtPowerOn with waiting := cs } → (∀ r ∈ ws, r.kind = 0x09 ∧ r.payload = []) →
    (∀ r ∈ cs, r.kind = 0x19) → s.store = storeAtPowerOn factoryRecords → s.nv = [] →
    ∃ t, exec .rebuildDone s = .next t ∧ t.nv = [] ∧
      t.setup.values = defaultValues ∧ t.setup.mask = none ∧ t.setup.loadApplied = true ∧ t.setup.fallback = false ∧
      t.setup.words = [0x0024#16, 0x0025#16, 0x0026#16, 0x0027#16] ∧ t.setup.waiting = [] ∧ t.cap.waiting = [] ∧
      t.setup.settle = some (s.trig.timestamp + 200000000#64) ∧ t.panel.scanning = true ∧
      t.store.sectors = ⟨.spare, 0, 0⟩ :: List.replicate 31 ⟨.erased, 0, 0⟩ ∧
      t.store.slots = s.store.slots.take 4 ++ List.replicate 60 (.empty none) ∧ t.store.powerOnSlot = 0 ∧
      t.store.seqCounter = 1 ∧ t.store.rebuilding = false ∧ t.store.inFlight = none ∧
      t.cap.runState = .running ∧ t.cap.capNo = 1 ∧ t.cap.runTaken = true ∧
      (t.cap.cur.map fun c => (c.phase, c.index, c.buffer)) = some (.holding, 1, 0) ∧
      t.link.notices = (offerLink (.runState .running 1 0) s.link).notices ∧
      t.link.replies = s.link.replies ++ ws.map (fun r => doneReply r
        ((catalogue.map (·.id)).flatMap (fun id => BitVec.ofNat 8 id :: leInt 4 (getParam defaultValues id)) ++ [0])) ++
        cs.map (fun r => doneReply r [2])) ∧
  (∀ (s : State) (k : Nat), s.powered = true → s.setup.loadApplied = false → s.store.rebuilding = true →
    s.store.rebuildErase = some k → k < 32 → s.store.sectors.length = 32 → Memory.wf 0xFF s.nv →
    ∃ t, exec .eraseCompletion s = .next t ∧ NvSameOutside (k * 4096) 4096 s t ∧
      (∀ i, i < 4096 → memRead 0xFF t.nv (k * 4096 + i) = 0xFF) ∧
      (sectorRow t.store.sectors k).state = .spare ∧ t.store.rebuilding = false ∧ t.store.rebuildErase = none ∧
      t.setup.loadApplied = true ∧ t.panel.scanning = true ∧ t.cap.runTaken = true) ∧
  (∀ (s : State), s.powered = true → s.store.rebuilding = true → s.store.rebuildErase = none → Memory.wf 0xFF s.nv →
    4 ≤ s.store.slots.length → (∀ e ∈ s.store.slots.take 4, entryLive e = []) → s.setup.values.length = 49 →
    ∃ t st, exec .rebuildDone s = .next t ∧ SlotsRebuilt s.nv st ∧ SectorsRebuilt s.nv st ∧ t.nv = s.nv ∧
      st = { s.store with
        sectors := st.sectors, rebuildErase := st.rebuildErase, slots := s.store.slots.take 4 ++ st.slots.drop 4
        powerOnSlot := st.powerOnSlot, powerOnLoc := st.powerOnLoc, seqCounter := st.seqCounter } ∧
      (∀ k, st.rebuildErase = some k → t = { s with store := st }) ∧
      (st.rebuildErase = none → s.store.queue = [] → s.setup.waiting = [] → s.cap.waiting = [] →
        t.store = { st with rebuilding := false } ∧ t.setup.loadApplied = true ∧ t.panel.scanning = true ∧
        t.cap.runTaken = true ∧ t.setup.settle = some (s.trig.timestamp + 200000000#64) ∧
        (∀ loc seq len prot hm lb, st.slots[st.powerOnSlot]? = some (.present loc seq len prot hm lb) →
          (∀ rec vals mask, readRecord s loc = some rec → recChangeSet rec = recallSet vals mask → SetValid vals mask →
            t.setup.fallback = false ∧ ∃ lowered, SetApplied s.ras.displayed vals mask lowered t.setup) ∧
          (readRecord s loc = none → t.setup.fallback = true)) ∧
        (∀ d, st.slots[st.powerOnSlot]? = some (.empty d) → t.setup.fallback = true ∧
          (s.store.factory = factoryRecords → s.store.slots.take 4 = (storeAtPowerOn factoryRecords).slots.take 4 →
            t.setup.values = defaultValues ∧ t.setup.mask = none)))) ∧
  (∀ (r : Request) (s : State) (kind : Byte) (cmd : Instr), InHandover kind r s →
    ((kind, cmd) ∈ [(0x08#8, Instr.setParams), (0x09#8, .getParams), (0x20#8, .writeMask), (0x21#8, .clearMask),
        (0x22#8, .readMask)] → s.setup.loadApplied = false →
      (kind = 0x20 → byteAt r.payload 0 ≤ 199 ∧ byteAt r.payload 0 + byteAt r.payload 1 ≤ 200) →
      exec cmd s = .next { s with
        link := afterDispatch s.link, setup := { s.setup with waiting := s.setup.waiting ++ [r] } }) ∧
    ((kind, cmd) ∈ [(0x19#8, Instr.run), (0x1A#8, .stop), (0x1B#8, .single), (0x1C#8, .setWatermark),
        (0x1D#8, .setInput)] → s.cap.runTaken = false →
      exec cmd s = .next { s with
        link := afterDispatch s.link, cap := { s.cap with waiting := s.cap.waiting ++ [r] } }))

/-- The store's requests that write nothing. Recall reads its slot's record and hands its change set to the setup
controller; ExportSlot answers the record; ListSlots answers the power-on choice, the number of Erased sectors and 38
bytes a slot. A slot whose record is no longer intact is refused (R171, R174, R178, R179). The setup controller
applies a recall's set with its effects, ACQ.SEGMENTS lowered when the capture would not fit, and the recall is
answered with the number of values clamped, or reported with PanelRecall when the panel made it (R6 to R11, R23, R174,
R175). A set that fails validation changes nothing: the recall is refused with UNKNOWN_PARAM or BAD_VALUE and the
failing pair or zone, or reported with PanelRecall (R5, R23, R137, R174, R175). Rests on the model's choice of log 12.
-/
def Obligations.RecallsExportsAndLists : Prop :=
  ∀ (r : Request) (s : State) (slot : Nat), s.setup.loadApplied = true → s.store.queue = [] →
    (∀ loc seq len prot hm lb, s.store.inFlight = none → slot ≤ 63 → r.payload = [BitVec.ofNat 8 slot] →
      slotEntry s slot = .present loc seq len prot hm lb →
      (∀ rec, readRecord s loc = some rec →
        (InHandover 0x29 r s → exec .recall s = .next { s with
          link := afterDispatch s.link
          store := { s.store with inFlight := some ⟨⟨r.tag, .recall slot⟩, [], false, false, .handed (recChangeSet rec)⟩ } }) ∧
        (InHandover 0x2D r s → exec .exportSlot s = .next (answered s (doneReply r rec)))) ∧
      (readRecord s loc = none →
        (InHandover 0x29 r s → exec .recall s = .next (answered s (refusedReply r 9 [0, 0, 0]))) ∧
        (InHandover 0x2D r s → exec .exportSlot s = .next (answered s (refusedReply r 9 [0, 0, 0]))))) ∧
    (∀ count, InHandover 0x2C r s → s.store.inFlight = none → slot < 256 → count < 256 →
      r.payload = [BitVec.ofNat 8 slot, BitVec.ofNat 8 count] →
      (count = 0 ∨ 32 < count ∨ 64 < slot + count →
        exec .listSlots s = .next (answered s (refusedReply r 5 [0, 0, 0]))) ∧
      (1 ≤ count → count ≤ 32 → slot + count ≤ 64 → exec .listSlots s = .next (answered s (doneReply r
        ([BitVec.ofNat 8 s.store.powerOnSlot,
          BitVec.ofNat 8 (s.store.sectors.filter fun x => decide (x.state = .erased)).length] ++
        ((s.store.slots.drop slot).take count).flatMap (fun e => match e with
          | .empty _ => List.replicate 38 0
          | .present _ seq _ prot hm lb =>
            [1, BitVec.ofNat 8 (prot.toNat + 2 * hm.toNat + 4 * lb.isSome.toNat)] ++ leBytes 4 seq ++
              lb.getD (List.replicate 32 0))))))) ∧
    (∀ f vals mask, s.powered = true → s.setup.values.length = 49 → SetValid vals mask → s.store.inFlight = some f →
      f.stage = .handed (recallSet vals mask) →
      ∃ t lowered clamps, exec .recallChangeSet s = .next t ∧ t.store = { s.store with inFlight := none } ∧
        SetApplied s.ras.displayed vals mask lowered t.setup ∧ clamps = clampedValues vals t.setup.values lowered ∧
        (∀ n, f.op.op = .recall n → SetHandedOn (fun l => l) s t ∧ t.link.replies = s.link.replies ++
          [⟨0x80, f.op.tag, [BitVec.ofNat 8 clamps], .accepted⟩]) ∧
        (∀ n, f.op.op = .panelRecall n →
          SetHandedOn (offerLink (.panelRecall n 0 clamps)) s t ∧ t.link.replies = s.link.replies) ∧
        (ValuesInRange vals → clamps ≤ 2)) ∧
    (∀ f cs code detail, s.powered = true → s.store.inFlight = some f → f.stage = .handed cs → RecallRefused cs code detail →
      (∀ n, f.op.op = .recall n → exec .recallChangeSet s = .next { s with
        store := { s.store with inFlight := none }
        link := { s.link with replies := s.link.replies ++
          [⟨0x81, f.op.tag, BitVec.ofNat 8 code :: 0x29 :: detail, .accepted⟩] } }) ∧
      (∀ n, f.op.op = .panelRecall n → exec .recallChangeSet s = .next { s with
        store := { s.store with inFlight := none }
        link := offerLink (.panelRecall n (if code = 4 then 3 else 4) 0) s.link }))

/-- Hold adds a hold on a user slot, Release takes one away, each answered with the count, and refused as R182 and
R183 say. A panel recall of a held slot waits until the slot's last hold is released, which then starts it, at once
when the store is idle; one of a slot without holds starts at once. A panel recall replaces one that is queued or
waits for a lock, which is reported with PanelRecall and result 5 (R172, R174, R175, R182, R183). Rests on the model's
choice of log 13. -/
def Obligations.LocksHoldPanelRecalls : Prop :=
  ∀ (r : Request) (s : State) (slot : Nat), slot < 256 →
    (InHandover 0x30 r s → r.payload = [BitVec.ofNat 8 slot] →
      (63 < slot → exec .hold s = .next (answered s (refusedReply r 5 [0, 0, 0]))) ∧
      (slot < 4 → exec .hold s = .next (answered s (refusedReply r 7 [0, 0, 0]))) ∧
      (4 ≤ slot → slot ≤ 63 →
        ((∀ l ∈ s.store.locks, l.slot ≠ slot) →
          (s.store.locks.length < 4 → exec .hold s = .next { answered s (doneReply r [1]) with
            store := { s.store with locks := s.store.locks ++ [⟨slot, 1, false⟩] } }) ∧
          (4 ≤ s.store.locks.length → exec .hold s = .next (answered s (refusedReply r 11 [0, 0, 0])))) ∧
        (∀ pre post n want, s.store.locks = pre ++ ⟨slot, n, want⟩ :: post → (∀ l ∈ pre ++ post, l.slot ≠ slot) →
          (n < 15 → exec .hold s = .next { answered s (doneReply r [BitVec.ofNat 8 (n + 1)]) with
            store := { s.store with locks := pre ++ ⟨slot, n + 1, want⟩ :: post } }) ∧
          (15 ≤ n → exec .hold s = .next (answered s (refusedReply r 10 [0, 0, 0])))))) ∧
    (InHandover 0x31 r s → r.payload = [BitVec.ofNat 8 slot] →
      (63 < slot → exec .release s = .next (answered s (refusedReply r 5 [0, 0, 0]))) ∧
      (slot ≤ 63 → (∀ l ∈ s.store.locks, l.slot ≠ slot) →
        exec .release s = .next (answered s (refusedReply r 12 [0, 0, 0]))) ∧
      (slot ≤ 63 → ∀ pre post n want, s.store.locks = pre ++ ⟨slot, n, want⟩ :: post →
        (∀ l ∈ pre ++ post, l.slot ≠ slot) →
        (2 ≤ n → exec .release s = .next { answered s (doneReply r [BitVec.ofNat 8 (n - 1), 0]) with
          store := { s.store with locks := pre ++ ⟨slot, n - 1, want⟩ :: post } }) ∧
        (n ≤ 1 → want = false → s.store.queue = [] → exec .release s = .next { answered s (doneReply r [0, 0]) with
          store := { s.store with locks := pre ++ post } }) ∧
        (n ≤ 1 → want = true → s.store.inFlight ≠ none → exec .release s = .next { answered s (doneReply r [0, 1]) with
          store := { s.store with
            locks := pre ++ post, waitingRecall := none
            queue := s.store.queue ++ [⟨0, .panelRecall slot⟩] } }) ∧
        (∀ (u : State), n ≤ 1 → want = true → s.setup.loadApplied = true → s.store.inFlight = none → s.store.queue = [] →
          u = { answered s (doneReply r [0, 1]) with
            store := { s.store with locks := pre ++ post, waitingRecall := none } } →
          (∀ d, slotEntry s slot = .empty d → exec .release s = .next { u with
            link := offerLink (.panelRecall slot 1 0) u.link }) ∧
          (∀ loc seq len prot hm lb, slotEntry s slot = .present loc seq len prot hm lb →
            (readRecord s loc = none → exec .release s = .next { u with
              link := offerLink (.panelRecall slot 2 0) u.link }) ∧
            (∀ rec, readRecord s loc = some rec → exec .release s = .next { u with
              store := { u.store with
                inFlight := some ⟨⟨0, .panelRecall slot⟩, [], false, false, .handed (recChangeSet rec)⟩ } }))))) ∧
    (∀ rest, s.powered = true → s.setup.loadApplied = true → s.panel.toStore = slot :: rest → s.store.queue = [] →
      s.store.waitingRecall = none → s.store.inFlight = none →
      ((∃ l ∈ s.store.locks, l.slot = slot) → exec .panelRecall s = .next { s with
        panel := { s.panel with toStore := rest }
        store := { s.store with
          waitingRecall := some slot
          locks := s.store.locks.map fun l => if l.slot = slot then { l with want := true } else l } }) ∧
      ((∀ l ∈ s.store.locks, l.slot ≠ slot) → ∀ d, slotEntry s slot = .empty d → exec .panelRecall s = .next { s with
        panel := { s.panel with toStore := rest }, link := offerLink (.panelRecall slot 1 0) s.link }) ∧
      ((∀ l ∈ s.store.locks, l.slot ≠ slot) → ∀ loc seq len prot hm lb rec,
        slotEntry s slot = .present loc seq len prot hm lb → readRecord s loc = some rec →
        exec .panelRecall s = .next { s with
          panel := { s.panel with toStore := rest }
          store := { s.store with
            inFlight := some ⟨⟨0, .panelRecall slot⟩, [], false, false, .handed (recChangeSet rec)⟩ } })) ∧
    -- R172
    (∀ rest old, s.powered = true → s.panel.toStore = slot :: rest → s.store.inFlight ≠ none →
      (∀ pre post tag, s.store.queue = pre ++ ⟨tag, .panelRecall old⟩ :: post → (∀ q ∈ pre ++ post, isPanelOp q = false) →
        s.store.waitingRecall = none → exec .panelRecall s = .next { s with
          panel := { s.panel with toStore := rest }
          store := { s.store with queue := pre ++ post ++ [⟨0, .panelRecall slot⟩] }
          link := offerLink (.panelRecall old 5 0) s.link }) ∧
      ((∀ q ∈ s.store.queue, isPanelOp q = false) → s.store.waitingRecall = some old → exec .panelRecall s = .next { s with
        panel := { s.panel with toStore := rest }
        store := { s.store with
          queue := s.store.queue ++ [⟨0, .panelRecall slot⟩], waitingRecall := none
          locks := s.store.locks.map fun l => if l.slot = old then { l with want := false } else l }
        link := offerLink (.panelRecall old 5 0) s.link }) ∧
      ((∀ q ∈ s.store.queue, isPanelOp q = false) → s.store.waitingRecall = none → exec .panelRecall s = .next { s with
        panel := { s.panel with toStore := rest }
        store := { s.store with queue := s.store.queue ++ [⟨0, .panelRecall slot⟩] } }))

/-! ## What every step keeps -/

/-- The live setup stays in its catalogue: 49 values, each within its limits, a capture that fits in the capture
region, and a mask section whose zones lie on the grid. Every step keeps it, whatever it does (R1, R2, R6 to R9,
R137). -/
def Obligations.LiveSetupStaysInItsCatalogue : Prop :=
  ∀ s t : State, SetupSound s → step s = .next t → SetupSound t

/-- The bounds of the link: at most 32 notices, no two of which coalesce, eight waiting requests, sixteen open ones,
and four refusals of its own (R198, R199, R202). Every step keeps them. -/
def Obligations.LinkStaysWithinItsBounds : Prop :=
  ∀ s t : State, LinkBounded s.link → step s = .next t → LinkBounded t.link

/-- Both memories stay in canonical form, so that equal contents are equal data. Rests on the model's choices of logs
2, 3 and 5. -/
def Obligations.MemoriesStayCanonical : Prop :=
  ∀ s t : State, MemoriesCanonical s → step s = .next t → MemoriesCanonical t

/-- The bounds of the class queues, of the owed refreshes, of the pass-over counts, of the row opens in the activation
window, and of the lock table (R76, R98, R103, R105, R106, R182). Every step keeps them. -/
def Obligations.QueuesCountsAndLocksStayBounded : Prop :=
  ∀ s t : State, SchedulerBounded s → LocksBounded s.store.locks → step s = .next t →
    SchedulerBounded t ∧ LocksBounded t.store.locks

/-- The state after the power-on reset meets all that every step keeps. Rests on the model's choices of logs 2, 3 and
7. -/
def Obligations.ResetMeetsTheInvariants : Prop :=
  SetupSound State.reset ∧ LinkBounded State.reset.link ∧ MemoriesCanonical State.reset ∧
    SchedulerBounded State.reset ∧ LocksBounded State.reset.store.locks
end

