-- ==== Sys2Proof/Laws/Bytes.lean ====
section
/-! SUPPORT. The laws of byte strings: fields written in little-endian order read back, and so do lists of entries. -/

namespace Sys2Proof.Machine

@[simp] theorem leBytes_length : ∀ (n v : Nat), (leBytes n v).length = n
  | 0, _ => rfl
  | n + 1, v => by simp [leBytes, leBytes_length n]

/-- A field read back is the number written, modulo its width. -/
theorem leNat_leBytes : ∀ (n v : Nat), leNat (leBytes n v) = v % 256 ^ n
  | 0, v => by simp [leBytes, leNat, Nat.mod_one]
  | n + 1, v => by
    simp only [leBytes, leNat, leNat_leBytes n, BitVec.toNat_ofNat]
    rw [show (256 : Nat) ^ (n + 1) = 256 * 256 ^ n by rw [Nat.pow_succ, Nat.mul_comm], Nat.mod_mul]

/-- A number that fits its field is read back. -/
theorem leNat_leBytes_of_lt {n v : Nat} (h : v < 256 ^ n) : leNat (leBytes n v) = v := by
  rw [leNat_leBytes, Nat.mod_eq_of_lt h]

@[simp] theorem leInt_length (n : Nat) (v : Int) : (leInt n v).length = n := by simp [leInt]

/-- A signed value of 32 bits is read back. -/
theorem intOfLe_leInt {v : Int} (h : Int32 v) : intOfLe (leInt 4 v) = v := by
  obtain ⟨h1, h2⟩ := h
  simp only [intOfLe, leInt, leNat_leBytes]
  rw [BitVec.toInt_eq_toNat_cond]
  simp only [BitVec.toNat_ofNat]
  omega

/-- The slice that a middle part of a byte string is. -/
theorem slice_append {a b c : List Byte} : slice (a ++ (b ++ c)) a.length b.length = b := by
  simp [slice]

/-- A field of a byte string that begins after a part of known length. -/
theorem fieldAt_append {a c : List Byte} {n v off : Nat} (ha : a.length = off) (h : v < 256 ^ n) :
    fieldAt (a ++ (leBytes n v ++ c)) off n = v := by
  subst ha
  have := slice_append (a := a) (b := leBytes n v) (c := c)
  rw [leBytes_length] at this
  rw [fieldAt, this, leNat_leBytes_of_lt h]

@[simp] theorem chunks_length (size : Nat) : ∀ (n : Nat) (bs : List Byte), (chunks size n bs).length = n
  | 0, _ => rfl
  | n + 1, bs => by simp [chunks, chunks_length size n]

/-- Entries of one size, written one after another, are read back. -/
theorem chunks_flatMap {α : Type} {size : Nat} {f : α → List Byte} (hf : ∀ x, (f x).length = size) :
    ∀ xs : List α, chunks size xs.length (xs.flatMap f) = xs.map f
  | [] => rfl
  | x :: xs => by
    have h1 : (f x ++ xs.flatMap f).take size = f x := by rw [← hf x]; simp
    have h2 : (f x ++ xs.flatMap f).drop size = xs.flatMap f := by rw [← hf x]; simp
    simp only [List.length_cons, List.flatMap_cons, chunks, List.map_cons, h1, h2, chunks_flatMap hf xs]

/-- The pairs of a SetParams payload are read back (R20). -/
theorem setParamsPairs_bytes {ps : List (Nat × Int)} (hl : ps.length ≤ 16)
    (h : ∀ p ∈ ps, p.1 < 256 ∧ Int32 p.2) :
    setParamsPairs (setParamsBytes ps) = ps.map fun p => (p.1, .absolute p.2) := by
  have hc : byteAt (setParamsBytes ps) 0 = ps.length := by simp [byteAt, setParamsBytes]; omega
  have hd : (setParamsBytes ps).drop 1 = ps.flatMap fun p => BitVec.ofNat 8 p.1 :: leInt 4 p.2 := rfl
  rw [setParamsPairs, hc, hd, chunks_flatMap fun p => by simp, List.map_map]
  apply List.map_congr_left
  intro p hp
  obtain ⟨h1, h2⟩ := h p hp
  have hs : slice (BitVec.ofNat 8 p.1 :: leInt 4 p.2) 1 4 = leInt 4 p.2 := by
    simp [slice, List.take_of_length_le]
  simp only [Function.comp, hs, intOfLe_leInt h2]
  simp [byteAt, Nat.mod_eq_of_lt h1]

end Sys2Proof.Machine
end

