-- ==== Sys2Proof/Laws/State.lean ====
section
/-! SUPPORT. One lemma per field per named update of State. -/

namespace Sys2Proof.Machine

variable (s : State)

/-! ## setPanel -/

@[simp] theorem setPanel_pending (p : Panel) : (setPanel p s).pending = s.pending := rfl
@[simp] theorem setPanel_powered (p : Panel) : (setPanel p s).powered = s.powered := rfl
@[simp] theorem setPanel_cuts (p : Panel) : (setPanel p s).cuts = s.cuts := rfl
@[simp] theorem setPanel_pins (p : Panel) : (setPanel p s).pins = s.pins := rfl
@[simp] theorem setPanel_setup (p : Panel) : (setPanel p s).setup = s.setup := rfl
@[simp] theorem setPanel_panel (p : Panel) : (setPanel p s).panel = p := rfl
@[simp] theorem setPanel_trig (p : Panel) : (setPanel p s).trig = s.trig := rfl
@[simp] theorem setPanel_cap (p : Panel) : (setPanel p s).cap = s.cap := rfl
@[simp] theorem setPanel_mem (p : Panel) : (setPanel p s).mem = s.mem := rfl
@[simp] theorem setPanel_dram (p : Panel) : (setPanel p s).dram = s.dram := rfl
@[simp] theorem setPanel_ras (p : Panel) : (setPanel p s).ras = s.ras := rfl
@[simp] theorem setPanel_mask (p : Panel) : (setPanel p s).mask = s.mask := rfl
@[simp] theorem setPanel_scan (p : Panel) : (setPanel p s).scan = s.scan := rfl
@[simp] theorem setPanel_store (p : Panel) : (setPanel p s).store = s.store := rfl
@[simp] theorem setPanel_nv (p : Panel) : (setPanel p s).nv = s.nv := rfl
@[simp] theorem setPanel_rd (p : Panel) : (setPanel p s).rd = s.rd := rfl
@[simp] theorem setPanel_link (p : Panel) : (setPanel p s).link = s.link := rfl

/-! ## setRaster -/

@[simp] theorem setRaster_pending (r : Raster) : (setRaster r s).pending = s.pending := rfl
@[simp] theorem setRaster_powered (r : Raster) : (setRaster r s).powered = s.powered := rfl
@[simp] theorem setRaster_cuts (r : Raster) : (setRaster r s).cuts = s.cuts := rfl
@[simp] theorem setRaster_pins (r : Raster) : (setRaster r s).pins = s.pins := rfl
@[simp] theorem setRaster_setup (r : Raster) : (setRaster r s).setup = s.setup := rfl
@[simp] theorem setRaster_panel (r : Raster) : (setRaster r s).panel = s.panel := rfl
@[simp] theorem setRaster_trig (r : Raster) : (setRaster r s).trig = s.trig := rfl
@[simp] theorem setRaster_cap (r : Raster) : (setRaster r s).cap = s.cap := rfl
@[simp] theorem setRaster_mem (r : Raster) : (setRaster r s).mem = s.mem := rfl
@[simp] theorem setRaster_dram (r : Raster) : (setRaster r s).dram = s.dram := rfl
@[simp] theorem setRaster_ras (r : Raster) : (setRaster r s).ras = r := rfl
@[simp] theorem setRaster_mask (r : Raster) : (setRaster r s).mask = s.mask := rfl
@[simp] theorem setRaster_scan (r : Raster) : (setRaster r s).scan = s.scan := rfl
@[simp] theorem setRaster_store (r : Raster) : (setRaster r s).store = s.store := rfl
@[simp] theorem setRaster_nv (r : Raster) : (setRaster r s).nv = s.nv := rfl
@[simp] theorem setRaster_rd (r : Raster) : (setRaster r s).rd = s.rd := rfl
@[simp] theorem setRaster_link (r : Raster) : (setRaster r s).link = s.link := rfl

/-! ## setScan -/

@[simp] theorem setScan_pending (c : ScanOut) : (setScan c s).pending = s.pending := rfl
@[simp] theorem setScan_powered (c : ScanOut) : (setScan c s).powered = s.powered := rfl
@[simp] theorem setScan_cuts (c : ScanOut) : (setScan c s).cuts = s.cuts := rfl
@[simp] theorem setScan_pins (c : ScanOut) : (setScan c s).pins = s.pins := rfl
@[simp] theorem setScan_setup (c : ScanOut) : (setScan c s).setup = s.setup := rfl
@[simp] theorem setScan_panel (c : ScanOut) : (setScan c s).panel = s.panel := rfl
@[simp] theorem setScan_trig (c : ScanOut) : (setScan c s).trig = s.trig := rfl
@[simp] theorem setScan_cap (c : ScanOut) : (setScan c s).cap = s.cap := rfl
@[simp] theorem setScan_mem (c : ScanOut) : (setScan c s).mem = s.mem := rfl
@[simp] theorem setScan_dram (c : ScanOut) : (setScan c s).dram = s.dram := rfl
@[simp] theorem setScan_ras (c : ScanOut) : (setScan c s).ras = s.ras := rfl
@[simp] theorem setScan_mask (c : ScanOut) : (setScan c s).mask = s.mask := rfl
@[simp] theorem setScan_scan (c : ScanOut) : (setScan c s).scan = c := rfl
@[simp] theorem setScan_store (c : ScanOut) : (setScan c s).store = s.store := rfl
@[simp] theorem setScan_nv (c : ScanOut) : (setScan c s).nv = s.nv := rfl
@[simp] theorem setScan_rd (c : ScanOut) : (setScan c s).rd = s.rd := rfl
@[simp] theorem setScan_link (c : ScanOut) : (setScan c s).link = s.link := rfl

/-! ## setReadout -/

@[simp] theorem setReadout_pending (u : Readout) : (setReadout u s).pending = s.pending := rfl
@[simp] theorem setReadout_powered (u : Readout) : (setReadout u s).powered = s.powered := rfl
@[simp] theorem setReadout_cuts (u : Readout) : (setReadout u s).cuts = s.cuts := rfl
@[simp] theorem setReadout_pins (u : Readout) : (setReadout u s).pins = s.pins := rfl
@[simp] theorem setReadout_setup (u : Readout) : (setReadout u s).setup = s.setup := rfl
@[simp] theorem setReadout_panel (u : Readout) : (setReadout u s).panel = s.panel := rfl
@[simp] theorem setReadout_trig (u : Readout) : (setReadout u s).trig = s.trig := rfl
@[simp] theorem setReadout_cap (u : Readout) : (setReadout u s).cap = s.cap := rfl
@[simp] theorem setReadout_mem (u : Readout) : (setReadout u s).mem = s.mem := rfl
@[simp] theorem setReadout_dram (u : Readout) : (setReadout u s).dram = s.dram := rfl
@[simp] theorem setReadout_ras (u : Readout) : (setReadout u s).ras = s.ras := rfl
@[simp] theorem setReadout_mask (u : Readout) : (setReadout u s).mask = s.mask := rfl
@[simp] theorem setReadout_scan (u : Readout) : (setReadout u s).scan = s.scan := rfl
@[simp] theorem setReadout_store (u : Readout) : (setReadout u s).store = s.store := rfl
@[simp] theorem setReadout_nv (u : Readout) : (setReadout u s).nv = s.nv := rfl
@[simp] theorem setReadout_rd (u : Readout) : (setReadout u s).rd = u := rfl
@[simp] theorem setReadout_link (u : Readout) : (setReadout u s).link = s.link := rfl

/-! ## setStore -/

@[simp] theorem setStore_pending (st : Store) : (setStore st s).pending = s.pending := rfl
@[simp] theorem setStore_powered (st : Store) : (setStore st s).powered = s.powered := rfl
@[simp] theorem setStore_cuts (st : Store) : (setStore st s).cuts = s.cuts := rfl
@[simp] theorem setStore_pins (st : Store) : (setStore st s).pins = s.pins := rfl
@[simp] theorem setStore_setup (st : Store) : (setStore st s).setup = s.setup := rfl
@[simp] theorem setStore_panel (st : Store) : (setStore st s).panel = s.panel := rfl
@[simp] theorem setStore_trig (st : Store) : (setStore st s).trig = s.trig := rfl
@[simp] theorem setStore_cap (st : Store) : (setStore st s).cap = s.cap := rfl
@[simp] theorem setStore_mem (st : Store) : (setStore st s).mem = s.mem := rfl
@[simp] theorem setStore_dram (st : Store) : (setStore st s).dram = s.dram := rfl
@[simp] theorem setStore_ras (st : Store) : (setStore st s).ras = s.ras := rfl
@[simp] theorem setStore_mask (st : Store) : (setStore st s).mask = s.mask := rfl
@[simp] theorem setStore_scan (st : Store) : (setStore st s).scan = s.scan := rfl
@[simp] theorem setStore_store (st : Store) : (setStore st s).store = st := rfl
@[simp] theorem setStore_nv (st : Store) : (setStore st s).nv = s.nv := rfl
@[simp] theorem setStore_rd (st : Store) : (setStore st s).rd = s.rd := rfl
@[simp] theorem setStore_link (st : Store) : (setStore st s).link = s.link := rfl

/-! ## setLink -/

@[simp] theorem setLink_pending (l : Link) : (setLink l s).pending = s.pending := rfl
@[simp] theorem setLink_powered (l : Link) : (setLink l s).powered = s.powered := rfl
@[simp] theorem setLink_cuts (l : Link) : (setLink l s).cuts = s.cuts := rfl
@[simp] theorem setLink_pins (l : Link) : (setLink l s).pins = s.pins := rfl
@[simp] theorem setLink_setup (l : Link) : (setLink l s).setup = s.setup := rfl
@[simp] theorem setLink_panel (l : Link) : (setLink l s).panel = s.panel := rfl
@[simp] theorem setLink_trig (l : Link) : (setLink l s).trig = s.trig := rfl
@[simp] theorem setLink_cap (l : Link) : (setLink l s).cap = s.cap := rfl
@[simp] theorem setLink_mem (l : Link) : (setLink l s).mem = s.mem := rfl
@[simp] theorem setLink_dram (l : Link) : (setLink l s).dram = s.dram := rfl
@[simp] theorem setLink_ras (l : Link) : (setLink l s).ras = s.ras := rfl
@[simp] theorem setLink_mask (l : Link) : (setLink l s).mask = s.mask := rfl
@[simp] theorem setLink_scan (l : Link) : (setLink l s).scan = s.scan := rfl
@[simp] theorem setLink_store (l : Link) : (setLink l s).store = s.store := rfl
@[simp] theorem setLink_nv (l : Link) : (setLink l s).nv = s.nv := rfl
@[simp] theorem setLink_rd (l : Link) : (setLink l s).rd = s.rd := rfl
@[simp] theorem setLink_link (l : Link) : (setLink l s).link = l := rfl

/-! ## setKnob -/

@[simp] theorem setKnob_pending (i : Nat) (k : Knob) : (setKnob i k s).pending = s.pending := rfl
@[simp] theorem setKnob_powered (i : Nat) (k : Knob) : (setKnob i k s).powered = s.powered := rfl
@[simp] theorem setKnob_cuts (i : Nat) (k : Knob) : (setKnob i k s).cuts = s.cuts := rfl
@[simp] theorem setKnob_pins (i : Nat) (k : Knob) : (setKnob i k s).pins = s.pins := rfl
@[simp] theorem setKnob_setup (i : Nat) (k : Knob) : (setKnob i k s).setup = s.setup := rfl
@[simp] theorem setKnob_panel (i : Nat) (k : Knob) :
    (setKnob i k s).panel = { s.panel with knobs := s.panel.knobs.set i k } := rfl
@[simp] theorem setKnob_trig (i : Nat) (k : Knob) : (setKnob i k s).trig = s.trig := rfl
@[simp] theorem setKnob_cap (i : Nat) (k : Knob) : (setKnob i k s).cap = s.cap := rfl
@[simp] theorem setKnob_mem (i : Nat) (k : Knob) : (setKnob i k s).mem = s.mem := rfl
@[simp] theorem setKnob_dram (i : Nat) (k : Knob) : (setKnob i k s).dram = s.dram := rfl
@[simp] theorem setKnob_ras (i : Nat) (k : Knob) : (setKnob i k s).ras = s.ras := rfl
@[simp] theorem setKnob_mask (i : Nat) (k : Knob) : (setKnob i k s).mask = s.mask := rfl
@[simp] theorem setKnob_scan (i : Nat) (k : Knob) : (setKnob i k s).scan = s.scan := rfl
@[simp] theorem setKnob_store (i : Nat) (k : Knob) : (setKnob i k s).store = s.store := rfl
@[simp] theorem setKnob_nv (i : Nat) (k : Knob) : (setKnob i k s).nv = s.nv := rfl
@[simp] theorem setKnob_rd (i : Nat) (k : Knob) : (setKnob i k s).rd = s.rd := rfl
@[simp] theorem setKnob_link (i : Nat) (k : Knob) : (setKnob i k s).link = s.link := rfl

/-! ## setCur -/

@[simp] theorem setCur_pending (c : CurSegment) : (setCur c s).pending = s.pending := rfl
@[simp] theorem setCur_powered (c : CurSegment) : (setCur c s).powered = s.powered := rfl
@[simp] theorem setCur_cuts (c : CurSegment) : (setCur c s).cuts = s.cuts := rfl
@[simp] theorem setCur_pins (c : CurSegment) : (setCur c s).pins = s.pins := rfl
@[simp] theorem setCur_setup (c : CurSegment) : (setCur c s).setup = s.setup := rfl
@[simp] theorem setCur_panel (c : CurSegment) : (setCur c s).panel = s.panel := rfl
@[simp] theorem setCur_trig (c : CurSegment) : (setCur c s).trig = s.trig := rfl
@[simp] theorem setCur_cap (c : CurSegment) : (setCur c s).cap = { s.cap with cur := some c } := rfl
@[simp] theorem setCur_mem (c : CurSegment) : (setCur c s).mem = s.mem := rfl
@[simp] theorem setCur_dram (c : CurSegment) : (setCur c s).dram = s.dram := rfl
@[simp] theorem setCur_ras (c : CurSegment) : (setCur c s).ras = s.ras := rfl
@[simp] theorem setCur_mask (c : CurSegment) : (setCur c s).mask = s.mask := rfl
@[simp] theorem setCur_scan (c : CurSegment) : (setCur c s).scan = s.scan := rfl
@[simp] theorem setCur_store (c : CurSegment) : (setCur c s).store = s.store := rfl
@[simp] theorem setCur_nv (c : CurSegment) : (setCur c s).nv = s.nv := rfl
@[simp] theorem setCur_rd (c : CurSegment) : (setCur c s).rd = s.rd := rfl
@[simp] theorem setCur_link (c : CurSegment) : (setCur c s).link = s.link := rfl

/-! ## setAssembly -/

@[simp] theorem setAssembly_pending (ch : Nat) (b : Option CapBurst) : (setAssembly ch b s).pending = s.pending := rfl
@[simp] theorem setAssembly_powered (ch : Nat) (b : Option CapBurst) : (setAssembly ch b s).powered = s.powered := rfl
@[simp] theorem setAssembly_cuts (ch : Nat) (b : Option CapBurst) : (setAssembly ch b s).cuts = s.cuts := rfl
@[simp] theorem setAssembly_pins (ch : Nat) (b : Option CapBurst) : (setAssembly ch b s).pins = s.pins := rfl
@[simp] theorem setAssembly_setup (ch : Nat) (b : Option CapBurst) : (setAssembly ch b s).setup = s.setup := rfl
@[simp] theorem setAssembly_panel (ch : Nat) (b : Option CapBurst) : (setAssembly ch b s).panel = s.panel := rfl
@[simp] theorem setAssembly_trig (ch : Nat) (b : Option CapBurst) : (setAssembly ch b s).trig = s.trig := rfl
@[simp] theorem setAssembly_cap (ch : Nat) (b : Option CapBurst) :
    (setAssembly ch b s).cap = { s.cap with assembly := s.cap.assembly.set (ch - 1) b } := rfl
@[simp] theorem setAssembly_mem (ch : Nat) (b : Option CapBurst) : (setAssembly ch b s).mem = s.mem := rfl
@[simp] theorem setAssembly_dram (ch : Nat) (b : Option CapBurst) : (setAssembly ch b s).dram = s.dram := rfl
@[simp] theorem setAssembly_ras (ch : Nat) (b : Option CapBurst) : (setAssembly ch b s).ras = s.ras := rfl
@[simp] theorem setAssembly_mask (ch : Nat) (b : Option CapBurst) : (setAssembly ch b s).mask = s.mask := rfl
@[simp] theorem setAssembly_scan (ch : Nat) (b : Option CapBurst) : (setAssembly ch b s).scan = s.scan := rfl
@[simp] theorem setAssembly_store (ch : Nat) (b : Option CapBurst) : (setAssembly ch b s).store = s.store := rfl
@[simp] theorem setAssembly_nv (ch : Nat) (b : Option CapBurst) : (setAssembly ch b s).nv = s.nv := rfl
@[simp] theorem setAssembly_rd (ch : Nat) (b : Option CapBurst) : (setAssembly ch b s).rd = s.rd := rfl
@[simp] theorem setAssembly_link (ch : Nat) (b : Option CapBurst) : (setAssembly ch b s).link = s.link := rfl

/-! ## setInFlight -/

@[simp] theorem setInFlight_pending (f : Option InFlight) : (setInFlight f s).pending = s.pending := rfl
@[simp] theorem setInFlight_powered (f : Option InFlight) : (setInFlight f s).powered = s.powered := rfl
@[simp] theorem setInFlight_cuts (f : Option InFlight) : (setInFlight f s).cuts = s.cuts := rfl
@[simp] theorem setInFlight_pins (f : Option InFlight) : (setInFlight f s).pins = s.pins := rfl
@[simp] theorem setInFlight_setup (f : Option InFlight) : (setInFlight f s).setup = s.setup := rfl
@[simp] theorem setInFlight_panel (f : Option InFlight) : (setInFlight f s).panel = s.panel := rfl
@[simp] theorem setInFlight_trig (f : Option InFlight) : (setInFlight f s).trig = s.trig := rfl
@[simp] theorem setInFlight_cap (f : Option InFlight) : (setInFlight f s).cap = s.cap := rfl
@[simp] theorem setInFlight_mem (f : Option InFlight) : (setInFlight f s).mem = s.mem := rfl
@[simp] theorem setInFlight_dram (f : Option InFlight) : (setInFlight f s).dram = s.dram := rfl
@[simp] theorem setInFlight_ras (f : Option InFlight) : (setInFlight f s).ras = s.ras := rfl
@[simp] theorem setInFlight_mask (f : Option InFlight) : (setInFlight f s).mask = s.mask := rfl
@[simp] theorem setInFlight_scan (f : Option InFlight) : (setInFlight f s).scan = s.scan := rfl
@[simp] theorem setInFlight_store (f : Option InFlight) :
    (setInFlight f s).store = { s.store with inFlight := f } := rfl
@[simp] theorem setInFlight_nv (f : Option InFlight) : (setInFlight f s).nv = s.nv := rfl
@[simp] theorem setInFlight_rd (f : Option InFlight) : (setInFlight f s).rd = s.rd := rfl
@[simp] theorem setInFlight_link (f : Option InFlight) : (setInFlight f s).link = s.link := rfl

/-! ## setQueue -/

@[simp] theorem setQueue_pending (q : List QueuedOp) : (setQueue q s).pending = s.pending := rfl
@[simp] theorem setQueue_powered (q : List QueuedOp) : (setQueue q s).powered = s.powered := rfl
@[simp] theorem setQueue_cuts (q : List QueuedOp) : (setQueue q s).cuts = s.cuts := rfl
@[simp] theorem setQueue_pins (q : List QueuedOp) : (setQueue q s).pins = s.pins := rfl
@[simp] theorem setQueue_setup (q : List QueuedOp) : (setQueue q s).setup = s.setup := rfl
@[simp] theorem setQueue_panel (q : List QueuedOp) : (setQueue q s).panel = s.panel := rfl
@[simp] theorem setQueue_trig (q : List QueuedOp) : (setQueue q s).trig = s.trig := rfl
@[simp] theorem setQueue_cap (q : List QueuedOp) : (setQueue q s).cap = s.cap := rfl
@[simp] theorem setQueue_mem (q : List QueuedOp) : (setQueue q s).mem = s.mem := rfl
@[simp] theorem setQueue_dram (q : List QueuedOp) : (setQueue q s).dram = s.dram := rfl
@[simp] theorem setQueue_ras (q : List QueuedOp) : (setQueue q s).ras = s.ras := rfl
@[simp] theorem setQueue_mask (q : List QueuedOp) : (setQueue q s).mask = s.mask := rfl
@[simp] theorem setQueue_scan (q : List QueuedOp) : (setQueue q s).scan = s.scan := rfl
@[simp] theorem setQueue_store (q : List QueuedOp) : (setQueue q s).store = { s.store with queue := q } := rfl
@[simp] theorem setQueue_nv (q : List QueuedOp) : (setQueue q s).nv = s.nv := rfl
@[simp] theorem setQueue_rd (q : List QueuedOp) : (setQueue q s).rd = s.rd := rfl
@[simp] theorem setQueue_link (q : List QueuedOp) : (setQueue q s).link = s.link := rfl

/-! ## pushReply -/

@[simp] theorem pushReply_pending (r : Reply) : (pushReply r s).pending = s.pending := rfl
@[simp] theorem pushReply_powered (r : Reply) : (pushReply r s).powered = s.powered := rfl
@[simp] theorem pushReply_cuts (r : Reply) : (pushReply r s).cuts = s.cuts := rfl
@[simp] theorem pushReply_pins (r : Reply) : (pushReply r s).pins = s.pins := rfl
@[simp] theorem pushReply_setup (r : Reply) : (pushReply r s).setup = s.setup := rfl
@[simp] theorem pushReply_panel (r : Reply) : (pushReply r s).panel = s.panel := rfl
@[simp] theorem pushReply_trig (r : Reply) : (pushReply r s).trig = s.trig := rfl
@[simp] theorem pushReply_cap (r : Reply) : (pushReply r s).cap = s.cap := rfl
@[simp] theorem pushReply_mem (r : Reply) : (pushReply r s).mem = s.mem := rfl
@[simp] theorem pushReply_dram (r : Reply) : (pushReply r s).dram = s.dram := rfl
@[simp] theorem pushReply_ras (r : Reply) : (pushReply r s).ras = s.ras := rfl
@[simp] theorem pushReply_mask (r : Reply) : (pushReply r s).mask = s.mask := rfl
@[simp] theorem pushReply_scan (r : Reply) : (pushReply r s).scan = s.scan := rfl
@[simp] theorem pushReply_store (r : Reply) : (pushReply r s).store = s.store := rfl
@[simp] theorem pushReply_nv (r : Reply) : (pushReply r s).nv = s.nv := rfl
@[simp] theorem pushReply_rd (r : Reply) : (pushReply r s).rd = s.rd := rfl
@[simp] theorem pushReply_link (r : Reply) :
    (pushReply r s).link = { s.link with replies := s.link.replies ++ [r] } := rfl

/-! ## offer -/

@[simp] theorem offer_pending (n : Notice) : (offer n s).pending = s.pending := rfl
@[simp] theorem offer_powered (n : Notice) : (offer n s).powered = s.powered := rfl
@[simp] theorem offer_cuts (n : Notice) : (offer n s).cuts = s.cuts := rfl
@[simp] theorem offer_pins (n : Notice) : (offer n s).pins = s.pins := rfl
@[simp] theorem offer_setup (n : Notice) : (offer n s).setup = s.setup := rfl
@[simp] theorem offer_panel (n : Notice) : (offer n s).panel = s.panel := rfl
@[simp] theorem offer_trig (n : Notice) : (offer n s).trig = s.trig := rfl
@[simp] theorem offer_cap (n : Notice) : (offer n s).cap = s.cap := rfl
@[simp] theorem offer_mem (n : Notice) : (offer n s).mem = s.mem := rfl
@[simp] theorem offer_dram (n : Notice) : (offer n s).dram = s.dram := rfl
@[simp] theorem offer_ras (n : Notice) : (offer n s).ras = s.ras := rfl
@[simp] theorem offer_mask (n : Notice) : (offer n s).mask = s.mask := rfl
@[simp] theorem offer_scan (n : Notice) : (offer n s).scan = s.scan := rfl
@[simp] theorem offer_store (n : Notice) : (offer n s).store = s.store := rfl
@[simp] theorem offer_nv (n : Notice) : (offer n s).nv = s.nv := rfl
@[simp] theorem offer_rd (n : Notice) : (offer n s).rd = s.rd := rfl
@[simp] theorem offer_link (n : Notice) : (offer n s).link = offerLink n s.link := rfl

/-! ## putSetup -/

@[simp] theorem putSetup_pending (o : SetOutcome) : (putSetup o s).pending = s.pending := rfl
@[simp] theorem putSetup_powered (o : SetOutcome) : (putSetup o s).powered = s.powered := rfl
@[simp] theorem putSetup_cuts (o : SetOutcome) : (putSetup o s).cuts = s.cuts := rfl
@[simp] theorem putSetup_pins (o : SetOutcome) : (putSetup o s).pins = s.pins := rfl
@[simp] theorem putSetup_setup (o : SetOutcome) :
    (putSetup o s).setup = { s.setup with values := o.values, mask := o.mask } := rfl
@[simp] theorem putSetup_panel (o : SetOutcome) : (putSetup o s).panel = s.panel := rfl
@[simp] theorem putSetup_trig (o : SetOutcome) : (putSetup o s).trig = s.trig := rfl
@[simp] theorem putSetup_cap (o : SetOutcome) : (putSetup o s).cap = s.cap := rfl
@[simp] theorem putSetup_mem (o : SetOutcome) : (putSetup o s).mem = s.mem := rfl
@[simp] theorem putSetup_dram (o : SetOutcome) : (putSetup o s).dram = s.dram := rfl
@[simp] theorem putSetup_ras (o : SetOutcome) : (putSetup o s).ras = s.ras := rfl
@[simp] theorem putSetup_mask (o : SetOutcome) : (putSetup o s).mask = s.mask := rfl
@[simp] theorem putSetup_scan (o : SetOutcome) : (putSetup o s).scan = s.scan := rfl
@[simp] theorem putSetup_store (o : SetOutcome) : (putSetup o s).store = s.store := rfl
@[simp] theorem putSetup_nv (o : SetOutcome) : (putSetup o s).nv = s.nv := rfl
@[simp] theorem putSetup_rd (o : SetOutcome) : (putSetup o s).rd = s.rd := rfl
@[simp] theorem putSetup_link (o : SetOutcome) : (putSetup o s).link = s.link := rfl

/-! ## drivePin -/

@[simp] theorem drivePin_pending (i : Nat) (lines : BitVec 2) : (drivePin i lines s).pending = s.pending := rfl
@[simp] theorem drivePin_powered (i : Nat) (lines : BitVec 2) : (drivePin i lines s).powered = s.powered := rfl
@[simp] theorem drivePin_cuts (i : Nat) (lines : BitVec 2) : (drivePin i lines s).cuts = s.cuts := rfl
@[simp] theorem drivePin_pins (i : Nat) (lines : BitVec 2) :
    (drivePin i lines s).pins = { s.pins with knobLines := s.pins.knobLines.set i lines } := rfl
@[simp] theorem drivePin_setup (i : Nat) (lines : BitVec 2) : (drivePin i lines s).setup = s.setup := rfl
@[simp] theorem drivePin_panel (i : Nat) (lines : BitVec 2) : (drivePin i lines s).panel = s.panel := rfl
@[simp] theorem drivePin_trig (i : Nat) (lines : BitVec 2) : (drivePin i lines s).trig = s.trig := rfl
@[simp] theorem drivePin_cap (i : Nat) (lines : BitVec 2) : (drivePin i lines s).cap = s.cap := rfl
@[simp] theorem drivePin_mem (i : Nat) (lines : BitVec 2) : (drivePin i lines s).mem = s.mem := rfl
@[simp] theorem drivePin_dram (i : Nat) (lines : BitVec 2) : (drivePin i lines s).dram = s.dram := rfl
@[simp] theorem drivePin_ras (i : Nat) (lines : BitVec 2) : (drivePin i lines s).ras = s.ras := rfl
@[simp] theorem drivePin_mask (i : Nat) (lines : BitVec 2) : (drivePin i lines s).mask = s.mask := rfl
@[simp] theorem drivePin_scan (i : Nat) (lines : BitVec 2) : (drivePin i lines s).scan = s.scan := rfl
@[simp] theorem drivePin_store (i : Nat) (lines : BitVec 2) : (drivePin i lines s).store = s.store := rfl
@[simp] theorem drivePin_nv (i : Nat) (lines : BitVec 2) : (drivePin i lines s).nv = s.nv := rfl
@[simp] theorem drivePin_rd (i : Nat) (lines : BitVec 2) : (drivePin i lines s).rd = s.rd := rfl
@[simp] theorem drivePin_link (i : Nat) (lines : BitVec 2) : (drivePin i lines s).link = s.link := rfl

/-! ## startSettle -/

@[simp] theorem startSettle_pending : (startSettle s).pending = s.pending := rfl
@[simp] theorem startSettle_powered : (startSettle s).powered = s.powered := rfl
@[simp] theorem startSettle_cuts : (startSettle s).cuts = s.cuts := rfl
@[simp] theorem startSettle_pins : (startSettle s).pins = s.pins := rfl
@[simp] theorem startSettle_setup : (startSettle s).setup = { s.setup with settle := timerFor s settleTicks } := rfl
@[simp] theorem startSettle_panel : (startSettle s).panel = s.panel := rfl
@[simp] theorem startSettle_trig : (startSettle s).trig = s.trig := rfl
@[simp] theorem startSettle_cap : (startSettle s).cap = s.cap := rfl
@[simp] theorem startSettle_mem : (startSettle s).mem = s.mem := rfl
@[simp] theorem startSettle_dram : (startSettle s).dram = s.dram := rfl
@[simp] theorem startSettle_ras : (startSettle s).ras = s.ras := rfl
@[simp] theorem startSettle_mask : (startSettle s).mask = s.mask := rfl
@[simp] theorem startSettle_scan : (startSettle s).scan = s.scan := rfl
@[simp] theorem startSettle_store : (startSettle s).store = s.store := rfl
@[simp] theorem startSettle_nv : (startSettle s).nv = s.nv := rfl
@[simp] theorem startSettle_rd : (startSettle s).rd = s.rd := rfl
@[simp] theorem startSettle_link : (startSettle s).link = s.link := rfl

/-! ## emitWords -/

@[simp] theorem emitWords_pending (ns : List Nat) : (emitWords ns s).pending = s.pending := rfl
@[simp] theorem emitWords_powered (ns : List Nat) : (emitWords ns s).powered = s.powered := rfl
@[simp] theorem emitWords_cuts (ns : List Nat) : (emitWords ns s).cuts = s.cuts := rfl
@[simp] theorem emitWords_pins (ns : List Nat) : (emitWords ns s).pins = s.pins := rfl
@[simp] theorem emitWords_setup (ns : List Nat) :
    (emitWords ns s).setup = { s.setup with words := s.setup.words ++ ns.map (frontWord s.setup.values) } := rfl
@[simp] theorem emitWords_panel (ns : List Nat) : (emitWords ns s).panel = s.panel := rfl
@[simp] theorem emitWords_trig (ns : List Nat) : (emitWords ns s).trig = s.trig := rfl
@[simp] theorem emitWords_cap (ns : List Nat) : (emitWords ns s).cap = s.cap := rfl
@[simp] theorem emitWords_mem (ns : List Nat) : (emitWords ns s).mem = s.mem := rfl
@[simp] theorem emitWords_dram (ns : List Nat) : (emitWords ns s).dram = s.dram := rfl
@[simp] theorem emitWords_ras (ns : List Nat) : (emitWords ns s).ras = s.ras := rfl
@[simp] theorem emitWords_mask (ns : List Nat) : (emitWords ns s).mask = s.mask := rfl
@[simp] theorem emitWords_scan (ns : List Nat) : (emitWords ns s).scan = s.scan := rfl
@[simp] theorem emitWords_store (ns : List Nat) : (emitWords ns s).store = s.store := rfl
@[simp] theorem emitWords_nv (ns : List Nat) : (emitWords ns s).nv = s.nv := rfl
@[simp] theorem emitWords_rd (ns : List Nat) : (emitWords ns s).rd = s.rd := rfl
@[simp] theorem emitWords_link (ns : List Nat) : (emitWords ns s).link = s.link := rfl

/-! ## tellPreFill -/

@[simp] theorem tellPreFill_pending : (tellPreFill s).pending = s.pending := rfl
@[simp] theorem tellPreFill_powered : (tellPreFill s).powered = s.powered := rfl
@[simp] theorem tellPreFill_cuts : (tellPreFill s).cuts = s.cuts := rfl
@[simp] theorem tellPreFill_pins : (tellPreFill s).pins = s.pins := rfl
@[simp] theorem tellPreFill_setup : (tellPreFill s).setup = s.setup := rfl
@[simp] theorem tellPreFill_panel : (tellPreFill s).panel = s.panel := rfl
@[simp] theorem tellPreFill_trig : (tellPreFill s).trig = { s.trig with arm := .preFill } := rfl
@[simp] theorem tellPreFill_cap : (tellPreFill s).cap = s.cap := rfl
@[simp] theorem tellPreFill_mem : (tellPreFill s).mem = s.mem := rfl
@[simp] theorem tellPreFill_dram : (tellPreFill s).dram = s.dram := rfl
@[simp] theorem tellPreFill_ras : (tellPreFill s).ras = s.ras := rfl
@[simp] theorem tellPreFill_mask : (tellPreFill s).mask = s.mask := rfl
@[simp] theorem tellPreFill_scan : (tellPreFill s).scan = s.scan := rfl
@[simp] theorem tellPreFill_store : (tellPreFill s).store = s.store := rfl
@[simp] theorem tellPreFill_nv : (tellPreFill s).nv = s.nv := rfl
@[simp] theorem tellPreFill_rd : (tellPreFill s).rd = s.rd := rfl
@[simp] theorem tellPreFill_link : (tellPreFill s).link = s.link := rfl

/-! ## tellDropped -/

@[simp] theorem tellDropped_pending : (tellDropped s).pending = s.pending := rfl
@[simp] theorem tellDropped_powered : (tellDropped s).powered = s.powered := rfl
@[simp] theorem tellDropped_cuts : (tellDropped s).cuts = s.cuts := rfl
@[simp] theorem tellDropped_pins : (tellDropped s).pins = s.pins := rfl
@[simp] theorem tellDropped_setup : (tellDropped s).setup = s.setup := rfl
@[simp] theorem tellDropped_panel : (tellDropped s).panel = s.panel := rfl
@[simp] theorem tellDropped_trig :
    (tellDropped s).trig = { s.trig with arm := .idle, auto := none, pendingForce := false } := rfl
@[simp] theorem tellDropped_cap : (tellDropped s).cap = s.cap := rfl
@[simp] theorem tellDropped_mem : (tellDropped s).mem = s.mem := rfl
@[simp] theorem tellDropped_dram : (tellDropped s).dram = s.dram := rfl
@[simp] theorem tellDropped_ras : (tellDropped s).ras = s.ras := rfl
@[simp] theorem tellDropped_mask : (tellDropped s).mask = s.mask := rfl
@[simp] theorem tellDropped_scan : (tellDropped s).scan = s.scan := rfl
@[simp] theorem tellDropped_store : (tellDropped s).store = s.store := rfl
@[simp] theorem tellDropped_nv : (tellDropped s).nv = s.nv := rfl
@[simp] theorem tellDropped_rd : (tellDropped s).rd = s.rd := rfl
@[simp] theorem tellDropped_link : (tellDropped s).link = s.link := rfl

/-! ## setRunState -/

@[simp] theorem setRunState_pending (r : RunState) : (setRunState r s).pending = s.pending := rfl
@[simp] theorem setRunState_powered (r : RunState) : (setRunState r s).powered = s.powered := rfl
@[simp] theorem setRunState_cuts (r : RunState) : (setRunState r s).cuts = s.cuts := rfl
@[simp] theorem setRunState_pins (r : RunState) : (setRunState r s).pins = s.pins := rfl
@[simp] theorem setRunState_setup (r : RunState) : (setRunState r s).setup = s.setup := rfl
@[simp] theorem setRunState_panel (r : RunState) : (setRunState r s).panel = s.panel := rfl
@[simp] theorem setRunState_trig (r : RunState) : (setRunState r s).trig = s.trig := rfl
@[simp] theorem setRunState_cap (r : RunState) : (setRunState r s).cap = { s.cap with runState := r } := rfl
@[simp] theorem setRunState_mem (r : RunState) : (setRunState r s).mem = s.mem := rfl
@[simp] theorem setRunState_dram (r : RunState) : (setRunState r s).dram = s.dram := rfl
@[simp] theorem setRunState_ras (r : RunState) : (setRunState r s).ras = { s.ras with runView := r } := rfl
@[simp] theorem setRunState_mask (r : RunState) : (setRunState r s).mask = s.mask := rfl
@[simp] theorem setRunState_scan (r : RunState) : (setRunState r s).scan = s.scan := rfl
@[simp] theorem setRunState_store (r : RunState) : (setRunState r s).store = s.store := rfl
@[simp] theorem setRunState_nv (r : RunState) : (setRunState r s).nv = s.nv := rfl
@[simp] theorem setRunState_rd (r : RunState) : (setRunState r s).rd = s.rd := rfl
@[simp] theorem setRunState_link (r : RunState) : (setRunState r s).link = s.link := rfl

/-! ## requestClear -/

@[simp] theorem requestClear_pending : (requestClear s).pending = s.pending := rfl
@[simp] theorem requestClear_powered : (requestClear s).powered = s.powered := rfl
@[simp] theorem requestClear_cuts : (requestClear s).cuts = s.cuts := rfl
@[simp] theorem requestClear_pins : (requestClear s).pins = s.pins := rfl
@[simp] theorem requestClear_setup : (requestClear s).setup = s.setup := rfl
@[simp] theorem requestClear_panel : (requestClear s).panel = s.panel := rfl
@[simp] theorem requestClear_trig : (requestClear s).trig = s.trig := rfl
@[simp] theorem requestClear_cap : (requestClear s).cap = s.cap := rfl
@[simp] theorem requestClear_mem : (requestClear s).mem = s.mem := rfl
@[simp] theorem requestClear_dram : (requestClear s).dram = s.dram := rfl
@[simp] theorem requestClear_ras :
    (requestClear s).ras = { s.ras with pendingClear := true, redraw := s.ras.redraw || s.ras.runView == .stopped } := rfl
@[simp] theorem requestClear_mask : (requestClear s).mask = s.mask := rfl
@[simp] theorem requestClear_scan : (requestClear s).scan = s.scan := rfl
@[simp] theorem requestClear_store : (requestClear s).store = s.store := rfl
@[simp] theorem requestClear_nv : (requestClear s).nv = s.nv := rfl
@[simp] theorem requestClear_rd : (requestClear s).rd = s.rd := rfl
@[simp] theorem requestClear_link : (requestClear s).link = s.link := rfl

/-! ## requestRedraw -/

@[simp] theorem requestRedraw_pending : (requestRedraw s).pending = s.pending := rfl
@[simp] theorem requestRedraw_powered : (requestRedraw s).powered = s.powered := rfl
@[simp] theorem requestRedraw_cuts : (requestRedraw s).cuts = s.cuts := rfl
@[simp] theorem requestRedraw_pins : (requestRedraw s).pins = s.pins := rfl
@[simp] theorem requestRedraw_setup : (requestRedraw s).setup = s.setup := rfl
@[simp] theorem requestRedraw_panel : (requestRedraw s).panel = s.panel := rfl
@[simp] theorem requestRedraw_trig : (requestRedraw s).trig = s.trig := rfl
@[simp] theorem requestRedraw_cap : (requestRedraw s).cap = s.cap := rfl
@[simp] theorem requestRedraw_mem : (requestRedraw s).mem = s.mem := rfl
@[simp] theorem requestRedraw_dram : (requestRedraw s).dram = s.dram := rfl
@[simp] theorem requestRedraw_ras : (requestRedraw s).ras = { s.ras with redraw := true } := rfl
@[simp] theorem requestRedraw_mask : (requestRedraw s).mask = s.mask := rfl
@[simp] theorem requestRedraw_scan : (requestRedraw s).scan = s.scan := rfl
@[simp] theorem requestRedraw_store : (requestRedraw s).store = s.store := rfl
@[simp] theorem requestRedraw_nv : (requestRedraw s).nv = s.nv := rfl
@[simp] theorem requestRedraw_rd : (requestRedraw s).rd = s.rd := rfl
@[simp] theorem requestRedraw_link : (requestRedraw s).link = s.link := rfl

/-! ## hunt -/

@[simp] theorem hunt_pending : (hunt s).pending = s.pending := rfl
@[simp] theorem hunt_powered : (hunt s).powered = s.powered := rfl
@[simp] theorem hunt_cuts : (hunt s).cuts = s.cuts := rfl
@[simp] theorem hunt_pins : (hunt s).pins = s.pins := rfl
@[simp] theorem hunt_setup : (hunt s).setup = s.setup := rfl
@[simp] theorem hunt_panel : (hunt s).panel = s.panel := rfl
@[simp] theorem hunt_trig : (hunt s).trig = s.trig := rfl
@[simp] theorem hunt_cap : (hunt s).cap = s.cap := rfl
@[simp] theorem hunt_mem : (hunt s).mem = s.mem := rfl
@[simp] theorem hunt_dram : (hunt s).dram = s.dram := rfl
@[simp] theorem hunt_ras : (hunt s).ras = s.ras := rfl
@[simp] theorem hunt_mask : (hunt s).mask = s.mask := rfl
@[simp] theorem hunt_scan : (hunt s).scan = s.scan := rfl
@[simp] theorem hunt_store : (hunt s).store = s.store := rfl
@[simp] theorem hunt_nv : (hunt s).nv = s.nv := rfl
@[simp] theorem hunt_rd : (hunt s).rd = s.rd := rfl
@[simp] theorem hunt_link : (hunt s).link = { s.link with asm := none } := rfl

/-! ## setMaskResult -/

@[simp] theorem setMaskResult_pending (serial : Word32) (m : MaskResult) :
    (setMaskResult serial m s).pending = s.pending := rfl
@[simp] theorem setMaskResult_powered (serial : Word32) (m : MaskResult) :
    (setMaskResult serial m s).powered = s.powered := rfl
@[simp] theorem setMaskResult_cuts (serial : Word32) (m : MaskResult) :
    (setMaskResult serial m s).cuts = s.cuts := rfl
@[simp] theorem setMaskResult_pins (serial : Word32) (m : MaskResult) :
    (setMaskResult serial m s).pins = s.pins := rfl
@[simp] theorem setMaskResult_setup (serial : Word32) (m : MaskResult) :
    (setMaskResult serial m s).setup = s.setup := rfl
@[simp] theorem setMaskResult_panel (serial : Word32) (m : MaskResult) :
    (setMaskResult serial m s).panel = s.panel := rfl
@[simp] theorem setMaskResult_trig (serial : Word32) (m : MaskResult) :
    (setMaskResult serial m s).trig = s.trig := rfl
@[simp] theorem setMaskResult_cap (serial : Word32) (m : MaskResult) :
    (setMaskResult serial m s).cap = { s.cap with
      table := s.cap.table.map fun r =>
        if r.serial = some serial ∧ r.state ≠ .filling then { r with mask := m } else r } := rfl
@[simp] theorem setMaskResult_mem (serial : Word32) (m : MaskResult) : (setMaskResult serial m s).mem = s.mem := rfl
@[simp] theorem setMaskResult_dram (serial : Word32) (m : MaskResult) :
    (setMaskResult serial m s).dram = s.dram := rfl
@[simp] theorem setMaskResult_ras (serial : Word32) (m : MaskResult) : (setMaskResult serial m s).ras = s.ras := rfl
@[simp] theorem setMaskResult_mask (serial : Word32) (m : MaskResult) :
    (setMaskResult serial m s).mask = s.mask := rfl
@[simp] theorem setMaskResult_scan (serial : Word32) (m : MaskResult) :
    (setMaskResult serial m s).scan = s.scan := rfl
@[simp] theorem setMaskResult_store (serial : Word32) (m : MaskResult) :
    (setMaskResult serial m s).store = s.store := rfl
@[simp] theorem setMaskResult_nv (serial : Word32) (m : MaskResult) : (setMaskResult serial m s).nv = s.nv := rfl
@[simp] theorem setMaskResult_rd (serial : Word32) (m : MaskResult) : (setMaskResult serial m s).rd = s.rd := rfl
@[simp] theorem setMaskResult_link (serial : Word32) (m : MaskResult) :
    (setMaskResult serial m s).link = s.link := rfl

end Sys2Proof.Machine
end

