-- ==== Sys2Proof/Laws/Dispatch.lean ====
section
/-! SUPPORT. What a dispatch command does, said once: the owner serves the request over the state with no hand-over in progress, and the
next hand-over begins. -/

namespace Sys2Proof.Machine

/-- The state in which the owner takes the request: the hand-over has ended. -/
def taken (s : State) : State := { s with link := { s.link with handover := none } }

@[simp] theorem afterDispatch_handover (l : Link) (h : Option Request) :
    afterDispatch { l with handover := h } = afterDispatch l := by
  unfold afterDispatch; cases l.resetPending <;> cases l.requests <;> rfl

theorem beginHandover_of_none {l : Link} (h : l.handover = none) : beginHandover l = afterDispatch l := by
  obtain ⟨asm, requests, handover, c, replies, notices, sending, f1, f2, f3, f4, lost, pend, out⟩ := l
  subst h
  cases pend <;> cases requests <;> rfl

/-- A powered part with the request in hand-over serves it and begins the next hand-over. -/
theorem dispatch_inHandover {kind : Byte} {r : Request} {s : State} (h : InHandover kind r s)
    (serve : Request → State → State) :
    dispatchCommand kind serve s =
      .next (setLink (beginHandover (serve r (taken s)).link) (serve r (taken s))) := by
  obtain ⟨hp, hh, hk⟩ := h
  simp [dispatchCommand, command, ifPowered, hp, dispatch, hh, hk, taken, setLink]

/-- The same, with requests placed in the DRAM queues at the end. -/
theorem dispatchAndPlace_inHandover {kind : Byte} {r : Request} {s : State} (h : InHandover kind r s)
    (serve : Request → State → State) :
    dispatchAndPlace kind serve s =
      .next (placeRequests (setLink (beginHandover (serve r (taken s)).link) (serve r (taken s)))) := by
  obtain ⟨hp, hh, hk⟩ := h
  simp [dispatchAndPlace, command, ifPowered, hp, dispatch, hh, hk, taken, setLink]

/-- A request that its owner answers at once, changing nothing else. -/
theorem dispatch_answered {kind : Byte} {r : Request} {s : State} (h : InHandover kind r s)
    {serve : Request → State → State} {rep : Reply} (hs : serve r (taken s) = pushReply rep (taken s)) :
    dispatchCommand kind serve s = .next (answered s rep) := by
  rw [dispatch_inHandover h, hs, beginHandover_of_none (by rfl)]
  exact congrArg (fun l => Host.Outcome.next { s with link := l })
    (afterDispatch_handover { s.link with replies := s.link.replies ++ [rep] } none)

/-- A request that its owner answers at once, with a change outside the link: the change stands, and the link is as
after an answer. -/
theorem dispatch_replied {kind : Byte} {r : Request} {s u : State} (h : InHandover kind r s)
    {serve : Request → State → State} {rep : Reply} (hl : u.link = (taken s).link)
    (hs : serve r (taken s) = pushReply rep u) :
    dispatchCommand kind serve s = .next { u with link := (answered s rep).link } := by
  rw [dispatch_inHandover h, hs]
  have : beginHandover (pushReply rep u).link = (answered s rep).link := by
    rw [beginHandover_of_none (by simp [pushReply, hl, taken])]
    simp only [pushReply, hl]
    exact afterDispatch_handover { s.link with replies := s.link.replies ++ [rep] } none
  rw [this]; rfl

/-- A request that its owner takes and answers later: what the owner does outside the link stands. -/
theorem dispatch_unanswered {kind : Byte} {r : Request} {s u : State} (h : InHandover kind r s)
    {serve : Request → State → State} (hl : u.link = (taken s).link) (hs : serve r (taken s) = u) :
    dispatchCommand kind serve s = .next { u with link := afterDispatch s.link } := by
  rw [dispatch_inHandover h, hs, hl, beginHandover_of_none (by rfl)]
  exact congrArg (fun l => Host.Outcome.next { u with link := l }) (afterDispatch_handover s.link none)

/-- A dispatch command has no effect when no request of its kind is in hand-over (log 9). -/
theorem dispatch_idle {kind : Byte} {s : State} (serve : Request → State → State)
    (h : ∀ r, s.link.handover = some r → r.kind ≠ kind) : dispatchCommand kind serve s = .next s := by
  unfold dispatchCommand command ifPowered dispatch
  cases hh : s.link.handover with
  | none => simp
  | some r => simp [h r hh]

/-! ## Power (log 4) -/

theorem command_powered {s : State} (f : State → State) (h : s.powered = true) : command f s = .next (f s) := by
  simp [command, ifPowered, h]

theorem command_unpowered {s : State} (f : State → State) (h : s.powered = false) : command f s = .next s := by
  simp [command, ifPowered, h]

/-! ## Replies -/

theorem replyDone_eq (r : Request) (p : List Byte) (s : State) :
    replyDone r.tag p s = pushReply (doneReply r p) s := rfl

theorem replyRefused_eq (r : Request) (reason : Reason) (d : Detail) (s : State) :
    replyRefused r.tag r.kind reason d s = pushReply (refusedReply r (reasonCode reason) (detailBytes d)) s := rfl

end Sys2Proof.Machine
end

