-- ==== Sys2Proof/Laws/Display.lean ====
section
/-! SUPPORT. The laws of the lines that scan-out sends (R153, R160, R161). -/

namespace Sys2Proof.Machine

variable {c : ScanOut} {pixels : List Colour}

@[simp] theorem composeLine_length (c : ScanOut) (f : Fetch) : (composeLine c f).length = 1280 := by
  simp [composeLine, linePixels]

/-- A line buffer that no line has filled holds the background, in the palette as it stands. -/
theorem bufferLine_empty (h : c.lineBuffer = none) : bufferLine c = List.replicate 1280 (c.palette.getD 1 0) := by
  simp only [bufferLine, h]; rfl

/-- Else it holds the last line composed. -/
theorem bufferLine_filled (h : c.lineBuffer = some pixels) : bufferLine c = pixels := by simp only [bufferLine, h]; rfl

end Sys2Proof.Machine
end

