-- ==== Sys2Proof/Laws/Footprint.lean ====
section
/-! SUPPORT. What each shared operation may touch, said once as an equation that rebuilds the state after from the state before:
rewriting with it shows every field that the operation leaves alone. -/

namespace Sys2Proof.Machine

/-! ## The footprints -/

/-- Only the capture controller differs. -/
def CaptureOnly (s t : State) : Prop := t = { s with cap := t.cap }

/-- Only the trigger engine, the capture controller and the panel's Triggered pulse differ. -/
def AcquireOnly (s t : State) : Prop :=
  t = { s with panel := { s.panel with triggered := t.panel.triggered }, trig := t.trig, cap := t.cap }

/-- Beyond AcquireOnly, the rasterizer and the notices differ. -/
def EffectOnly (s t : State) : Prop :=
  t = { s with
    panel := { s.panel with triggered := t.panel.triggered }, trig := t.trig, cap := t.cap, ras := t.ras
    link := { s.link with notices := t.link.notices, noticesLost := t.link.noticesLost } }

/-- Only the setup store, the reply queue and the notices differ. -/
def StoreOnly (s t : State) : Prop :=
  t = { s with
    store := t.store
    link := { s.link with replies := t.link.replies, notices := t.link.notices, noticesLost := t.link.noticesLost } }

/-- Only the DRAM's three queues and the work the three blocks hold back differ. -/
def PlaceOnly (s t : State) : Prop :=
  t = { s with
    mem := { s.mem with scanQ := t.mem.scanQ, rasterQ := t.mem.rasterQ, readQ := t.mem.readQ }
    scan := t.scan, ras := t.ras, rd := t.rd }

variable {s t u : State}

theorem CaptureOnly.refl (s : State) : CaptureOnly s s := rfl
theorem AcquireOnly.refl (s : State) : AcquireOnly s s := rfl
theorem EffectOnly.refl (s : State) : EffectOnly s s := rfl
theorem StoreOnly.refl (s : State) : StoreOnly s s := rfl
theorem PlaceOnly.refl (s : State) : PlaceOnly s s := rfl

theorem CaptureOnly.trans (h : CaptureOnly s t) (k : CaptureOnly t u) : CaptureOnly s u := by
  rw [CaptureOnly] at h k ⊢; rw [k, h]
theorem AcquireOnly.trans (h : AcquireOnly s t) (k : AcquireOnly t u) : AcquireOnly s u := by
  rw [AcquireOnly] at h k ⊢; rw [k, h]
theorem EffectOnly.trans (h : EffectOnly s t) (k : EffectOnly t u) : EffectOnly s u := by
  rw [EffectOnly] at h k ⊢; rw [k, h]
theorem StoreOnly.trans (h : StoreOnly s t) (k : StoreOnly t u) : StoreOnly s u := by
  rw [StoreOnly] at h k ⊢; rw [k, h]
theorem PlaceOnly.trans (h : PlaceOnly s t) (k : PlaceOnly t u) : PlaceOnly s u := by
  rw [PlaceOnly] at h k ⊢; rw [k, h]

theorem CaptureOnly.acquire (h : CaptureOnly s t) : AcquireOnly s t := by rw [CaptureOnly] at h; rw [h]; rfl
theorem AcquireOnly.effect (h : AcquireOnly s t) : EffectOnly s t := by rw [AcquireOnly] at h; rw [h]; rfl

/-! ## Notices and replies -/

theorem offer_eq (n : Notice) (s : State) :
    offer n s = { s with link := { s.link with
      notices := (offer n s).link.notices, noticesLost := (offer n s).link.noticesLost } } := by
  unfold offer offerLink; split <;> [rfl; (split <;> rfl)]

theorem offer_effectOnly (n : Notice) (s : State) : EffectOnly s (offer n s) := offer_eq n s

theorem offer_storeOnly (n : Notice) (s : State) : StoreOnly s (offer n s) := by unfold StoreOnly; rw [offer_eq]

/-! ## Bursts and points (R69 to R76) -/

theorem pushBurst_captureOnly (b : CapBurst) (s : State) : CaptureOnly s (pushBurst b s) := by
  unfold pushBurst; split <;> rfl

theorem flushChannel_captureOnly (s : State) (ch : Nat) : CaptureOnly s (flushChannel s ch) := by
  unfold flushChannel; split
  · exact CaptureOnly.trans (t := setAssembly ch none s) rfl (pushBurst_captureOnly _ _)
  · rfl

theorem flushAssembly_captureOnly (s : State) : CaptureOnly s (flushAssembly s) :=
  (((flushChannel_captureOnly s 1).trans (flushChannel_captureOnly _ 2)).trans (flushChannel_captureOnly _ 3)).trans
    (flushChannel_captureOnly _ 4)

theorem putPoint_captureOnly (d : Descriptor) (c : CurSegment) (ch : Nat) (bs : List Byte) (s : State) :
    CaptureOnly s (putPoint d c ch bs s) := by
  unfold putPoint; dsimp only; split
  · exact CaptureOnly.trans (t := setAssembly ch none s) rfl (pushBurst_captureOnly _ _)
  · rfl

theorem putPoints_captureOnly (d : Descriptor) (c : CurSegment) (gs : List Group) (s : State) :
    CaptureOnly s (putPoints d c gs s) := by
  unfold putPoints
  generalize d.channels = chs
  induction chs generalizing s with
  | nil => rfl
  | cons ch chs ih => exact (putPoint_captureOnly d c ch _ s).trans (ih _)

/-! ## Triggers and the life of a segment (R59, R74 to R84) -/

theorem acceptTrigger_acquireOnly (f : Bool) (s : State) : AcquireOnly s (acceptTrigger f s) := by
  unfold acceptTrigger captureTrigger
  split <;> [(dsimp only; split <;> rfl); rfl]

theorem enterArmed_acquireOnly (c : CurSegment) (s : State) : AcquireOnly s (enterArmed c s) := by
  unfold enterArmed; dsimp only; split
  · exact AcquireOnly.trans (t := { armAuto { setCur { c with phase := .armed, armedAny := false } s with
      trig := { latchAtArmed (liveTrig (setCur { c with phase := .armed, armedAny := false } s)) s.trig with
        arm := .armed } } with trig := { (armAuto { setCur { c with phase := .armed, armedAny := false } s with
      trig := { latchAtArmed (liveTrig (setCur { c with phase := .armed, armedAny := false } s)) s.trig with
        arm := .armed } }).trig with pendingForce := false } }) rfl (acceptTrigger_acquireOnly _ _)
  · rfl

theorem enterPreFill_acquireOnly (d : Descriptor) (c : CurSegment) (s : State) : AcquireOnly s (enterPreFill d c s) := by
  unfold enterPreFill; dsimp only; split
  · exact AcquireOnly.trans (t := tellPreFill (setCur _ s)) rfl (enterArmed_acquireOnly _ _)
  · rfl

theorem leaveHolding_acquireOnly (s : State) : AcquireOnly s (leaveHolding s) := by
  unfold leaveHolding
  split <;> [(split <;> [exact enterPreFill_acquireOnly _ _ _; rfl]); rfl]

theorem beginSegment_acquireOnly (i b : Nat) (s : State) : AcquireOnly s (beginSegment i b s) := by
  unfold beginSegment
  exact AcquireOnly.trans (t := { s with cap := _ }) rfl (leaveHolding_acquireOnly _)

theorem dropCurrent_acquireOnly (s : State) : AcquireOnly s (dropCurrent s) := by
  unfold dropCurrent; split
  · rfl
  · refine AcquireOnly.trans (flushAssembly_captureOnly s).acquire ?_
    dsimp only; split <;> rfl

/-! ## Run control and completion (R79 to R93) -/

theorem setRunState_effectOnly (r : RunState) (s : State) : EffectOnly s (setRunState r s) := rfl

theorem offerRunState_effectOnly (s : State) : EffectOnly s (offerRunState s) := offer_effectOnly _ _

theorem offerAcqDone_effectOnly (n : Nat) (s : State) : EffectOnly s (offerAcqDone n s) := offer_effectOnly _ _

theorem startCapture_acquireOnly (s : State) : AcquireOnly s (startCapture s) :=
  AcquireOnly.trans (t := takeDescriptor s) rfl (beginSegment_acquireOnly _ _ _)

/-- The run state set and RunState offered. -/
theorem tellRunState_effectOnly (r : RunState) (s : State) : EffectOnly s (offerRunState (setRunState r s)) :=
  EffectOnly.trans (setRunState_effectOnly r s) (offerRunState_effectOnly _)

theorem captureRun_effectOnly (s : State) : EffectOnly s (captureRun s).1 := by
  unfold captureRun; split
  · dsimp only; split
    · refine EffectOnly.trans (t := { s with cap := { s.cap with failLatch := false } }) rfl ?_
      exact (beginSegment_acquireOnly _ _ _).effect.trans (tellRunState_effectOnly _ _)
    · refine EffectOnly.trans (t := { s with cap := { s.cap with failLatch := false } }) rfl ?_
      exact (startCapture_acquireOnly _).effect.trans (tellRunState_effectOnly _ _)
  all_goals rfl

theorem captureStop_effectOnly (s : State) : EffectOnly s (captureStop s) := by
  unfold captureStop; split
  · rfl
  · exact (dropCurrent_acquireOnly s).effect.trans (tellRunState_effectOnly _ _)
  · exact (dropCurrent_acquireOnly s).effect.trans (tellRunState_effectOnly _ _)
  · exact ((dropCurrent_acquireOnly s).effect.trans (tellRunState_effectOnly _ _)).trans (offerAcqDone_effectOnly _ _)

theorem captureChange_effectOnly (s : State) : EffectOnly s (captureChange s) := by
  unfold captureChange; split
  · exact ((dropCurrent_acquireOnly s).trans (startCapture_acquireOnly _)).effect.trans (tellRunState_effectOnly _ _)
  · exact ((dropCurrent_acquireOnly s).trans (startCapture_acquireOnly _)).effect.trans (tellRunState_effectOnly _ _)
  · refine (setRunState_effectOnly .stopped s).trans ?_
    refine EffectOnly.trans (t := { setRunState .stopped s with
      cap := { (setRunState .stopped s).cap with settingsDiffer := true } }) rfl ?_
    exact (offerRunState_effectOnly _).trans (offerAcqDone_effectOnly _ _)
  · rfl

theorem captureSingle_effectOnly (s : State) : EffectOnly s (captureSingle s) := by
  refine EffectOnly.trans (t := { s with cap := { s.cap with failLatch := false } }) rfl ?_
  have h : ∀ u : State, EffectOnly u (offerRunState (setRunState .sequence (startCapture (dropCurrent u)))) := fun u =>
    ((dropCurrent_acquireOnly u).trans (startCapture_acquireOnly _)).effect.trans (tellRunState_effectOnly _ _)
  have h' : ∀ u : State, EffectOnly u (if u.cap.runState = .finishing then offerAcqDone 2 u else u) := by
    intro u; split <;> [exact offerAcqDone_effectOnly _ _; rfl]
  unfold captureSingle; dsimp only
  split
  · exact EffectOnly.trans (t := { s with cap := { s.cap with
      failLatch := false, desc := s.cap.desc.map fun d => { d with n := 1 } } }) rfl (tellRunState_effectOnly _ _)
  all_goals exact (h' _).trans (h _)

theorem triggerChange_acquireOnly (s : State) : AcquireOnly s (triggerChange s) := by
  unfold triggerChange; split <;> rfl

theorem setMaskResult_effectOnly (n : Word32) (m : MaskResult) (s : State) : EffectOnly s (setMaskResult n m s) := rfl

theorem skipAll_effectOnly (ns : List Word32) (s : State) : EffectOnly s (skipAll ns s) := by
  induction ns generalizing s with
  | nil => rfl
  | cons n ns ih => exact (setMaskResult_effectOnly n .skipped s).trans (ih _)

theorem appendDraw_effectOnly (n : Word32) (s : State) : EffectOnly s (appendDraw n s) :=
  (skipAll_effectOnly _ s).trans rfl

theorem checkWatermark_effectOnly (s : State) : EffectOnly s (checkWatermark s) := by
  unfold checkWatermark; split
  · exact EffectOnly.trans (t := { s with cap := { s.cap with watermark := 0 } }) rfl (offer_effectOnly _ _)
  · rfl

theorem finishSequence_effectOnly (b : Bool) (s : State) : EffectOnly s (finishSequence b s) := by
  unfold finishSequence; split
  · exact EffectOnly.trans (t := requestRedraw (setRunState .finishing s)) rfl (offerRunState_effectOnly _)
  · exact EffectOnly.trans (t := requestRedraw (setRunState .stopped s)) rfl
      ((offerRunState_effectOnly _).trans (offerAcqDone_effectOnly _ _))

theorem afterCompletion_effectOnly (c : CurSegment) (d : Descriptor) (b : Bool) (s : State) :
    EffectOnly s (afterCompletion c d b s) := by
  unfold afterCompletion; dsimp only; split
  · exact EffectOnly.trans (t := { s with cap := _ }) rfl (beginSegment_acquireOnly _ _ _).effect
  · split <;> split
    · exact EffectOnly.trans (t := { s with cap := _ }) rfl (beginSegment_acquireOnly _ _ _).effect
    · exact EffectOnly.trans (t := { s with cap := _ }) rfl (finishSequence_effectOnly _ _)
    · exact (beginSegment_acquireOnly _ _ _).effect
    · exact finishSequence_effectOnly _ _
  all_goals rfl

theorem completeSegment_effectOnly (s : State) : EffectOnly s (completeSegment s) := by
  unfold completeSegment; split
  · dsimp only
    refine EffectOnly.trans (EffectOnly.trans (t := { s with cap := _ }) rfl ?_)
      ((afterCompletion_effectOnly _ _ _ _).trans (checkWatermark_effectOnly _))
    split
    · exact appendDraw_effectOnly _ _
    · exact EffectOnly.trans (t := { s with cap := _ }) rfl (offer_effectOnly _ _)
  · rfl

theorem checkDrained_effectOnly (s : State) : EffectOnly s (checkDrained s) := by
  unfold checkDrained
  split <;> [(split <;> [exact completeSegment_effectOnly s; rfl]); rfl]

theorem finishWriting_effectOnly (c : CurSegment) (s : State) : EffectOnly s (finishWriting c s) :=
  EffectOnly.trans (t := setCur _ s) rfl ((flushAssembly_captureOnly _).acquire.effect.trans (checkDrained_effectOnly _))

theorem checkPostFill_effectOnly (s : State) : EffectOnly s (checkPostFill s) := by
  unfold checkPostFill
  split <;> [(split <;> [exact finishWriting_effectOnly _ s; rfl]); rfl]

theorem formPoint_effectOnly (d : Descriptor) (c : CurSegment) (gs : List Group) (s : State) :
    EffectOnly s (formPoint d c gs s) := by
  unfold formPoint; dsimp only
  refine (putPoints_captureOnly d c gs s).acquire.effect.trans ?_
  split
  · split <;> [exact (enterArmed_acquireOnly _ _).effect; rfl]
  · rfl
  · exact EffectOnly.trans (t := setCur _ _) rfl (checkPostFill_effectOnly _)
  all_goals rfl

theorem captureTick_effectOnly (adc : List Nat) (s : State) : EffectOnly s (captureTick adc s) := by
  unfold captureTick
  split
  · split
    · dsimp only; split
      · rfl
      · exact formPoint_effectOnly _ _ _ _
    · rfl
  · rfl

theorem forceAccept_effectOnly (s : State) : EffectOnly s (forceAccept s) :=
  (acceptTrigger_acquireOnly false s).effect.trans (checkPostFill_effectOnly _)

/-! ## A change set's effects (R11 to R19) -/

/-- The effects of a set touch the setup's words and settle timer beside what EffectOnly names. -/
theorem setEffects_eq (ids : List Nat) (s : State) :
    setEffects ids s = { s with
      setup := { s.setup with settle := (setEffects ids s).setup.settle, words := (setEffects ids s).setup.words }
      panel := { s.panel with triggered := (setEffects ids s).panel.triggered }
      trig := (setEffects ids s).trig, cap := (setEffects ids s).cap, ras := (setEffects ids s).ras
      link := { s.link with
        notices := (setEffects ids s).link.notices, noticesLost := (setEffects ids s).link.noticesLost } } := by
  have hf : frontEffect ids s = { s with setup := { s.setup with
      settle := (frontEffect ids s).setup.settle, words := (frontEffect ids s).setup.words } } := by
    unfold frontEffect; split <;> rfl
  have h : EffectOnly (frontEffect ids s) (setEffects ids s) := by
    have h1 : ∀ u, EffectOnly u (if classChanged ids .F || classChanged ids .C then captureChange u else u) := by
      intro u; split <;> [exact captureChange_effectOnly _; rfl]
    have h2 : ∀ u, EffectOnly u (if classChanged ids .T then triggerChange u else u) := by
      intro u; split <;> [exact (triggerChange_acquireOnly _).effect; rfl]
    have h3 : ∀ u, EffectOnly u (if classChanged ids .D then requestClear u else u) := by intro u; split <;> rfl
    have h4 : ∀ u, EffectOnly u (if ids.isEmpty then u else offer (.paramChanged ids) u) := by
      intro u; split <;> [rfl; exact offer_effectOnly _ _]
    exact (((h1 _).trans (h2 _)).trans (h3 _)).trans (h4 _)
  rw [EffectOnly] at h
  rw [h, hf]

/-! ## The store's queue (R171) -/

theorem refuseOp_storeOnly (q : QueuedOp) (r : Reason) (d : Detail) (s : State) : StoreOnly s (refuseOp q r d s) := by
  unfold refuseOp; split <;> [exact offer_storeOnly _ _; rfl; rfl; rfl; rfl; rfl; rfl; rfl; rfl]

theorem copyNext_storeOnly (a b : Nat) (rs : List LiveRecord) (f : InFlight) (s : State) :
    StoreOnly s (copyNext a b rs f s) := by unfold copyNext; split <;> rfl

theorem startReclaim_storeOnly (f : InFlight) (s : State) : StoreOnly s (startReclaim f s) := by
  unfold startReclaim; dsimp only; split
  · split <;> [rfl; exact copyNext_storeOnly _ _ _ _ _]
  · exact StoreOnly.trans (t := setInFlight none s) rfl (refuseOp_storeOnly _ _ _ _)

theorem placeRecord_storeOnly (f : InFlight) (s : State) : StoreOnly s (placeRecord f s) := by
  unfold placeRecord; dsimp only; split
  · rfl
  · split
    · rfl
    · exact StoreOnly.trans (t := setStore _ s) rfl (startReclaim_storeOnly _ _)

theorem writeRecord_storeOnly (q : QueuedOp) (r : List Byte) (s : State) : StoreOnly s (writeRecord q r s) := by
  unfold writeRecord; split <;> [exact placeRecord_storeOnly _ _; exact refuseOp_storeOnly _ _ _ _]

theorem startRecall_storeOnly (q : QueuedOp) (slot : Nat) (s : State) : StoreOnly s (startRecall q slot s) := by
  unfold startRecall; split
  · exact refuseOp_storeOnly _ _ _ _
  · split <;> [exact refuseOp_storeOnly _ _ _ _; rfl]

theorem startOp_storeOnly (q : QueuedOp) (s : State) : StoreOnly s (startOp q s) := by
  unfold startOp; split
  · unfold startSave; split <;> [exact refuseOp_storeOnly _ _ _ _; exact writeRecord_storeOnly _ _ _]
  · exact startRecall_storeOnly _ _ _
  · split <;> [rfl; exact startRecall_storeOnly _ _ _]
  · unfold startDelete; split
    · exact refuseOp_storeOnly _ _ _ _
    · split <;> [exact refuseOp_storeOnly _ _ _ _; exact writeRecord_storeOnly _ _ _]
  · unfold startProtect; split
    · exact refuseOp_storeOnly _ _ _ _
    · split
      · rfl
      · split <;> [exact refuseOp_storeOnly _ _ _ _; exact writeRecord_storeOnly _ _ _]
  · rfl
  · unfold startExport; split
    · exact refuseOp_storeOnly _ _ _ _
    · split <;> [exact refuseOp_storeOnly _ _ _ _; rfl]
  · unfold startImport; split <;> [exact refuseOp_storeOnly _ _ _ _; exact writeRecord_storeOnly _ _ _]
  · exact writeRecord_storeOnly _ _ _

theorem serveQueue_storeOnly : ∀ (qs : List QueuedOp) (s : State), StoreOnly s (serveQueue qs s)
  | [], _ => rfl
  | q :: rest, s => by
    have h : StoreOnly s (startOp q (setQueue rest s)) :=
      StoreOnly.trans (t := setQueue rest s) rfl (startOp_storeOnly _ _)
    unfold serveQueue; dsimp only; split
    · exact h
    · exact h.trans (serveQueue_storeOnly rest _)

theorem serveStore_storeOnly (s : State) : StoreOnly s (serveStore s) := by
  unfold serveStore; split <;> [exact serveQueue_storeOnly _ _; rfl]

/-- With an empty queue the store starts nothing. -/
theorem serveStore_of_nil {s : State} (h : s.store.queue = []) : serveStore s = s := by
  unfold serveStore; split
  · rw [h]; simp only [serveQueue, setQueue, setStore]; rw [← h]
  · rfl

/-! ## Placing DRAM requests (R98) -/

theorem fillScan_placeOnly : ∀ (n : Nat) (s : State), PlaceOnly s (fillScan n s)
  | 0, _ => rfl
  | n + 1, s => by
    unfold fillScan; split
    · split
      · rename_i q t h
        have ht : PlaceOnly s t := by
          revert h; simp only [scanNext, countHead]
          split
          · split
            · intro h; cases h; rfl
            · split
              · split
                · intro h; cases h; rfl
                · intro h; cases h
              · intro h; cases h
          · split
            · split
              · intro h; cases h; rfl
              · intro h; cases h
            · intro h; cases h
        exact ht.trans (PlaceOnly.trans (t := { t with mem := { t.mem with scanQ := _ } }) rfl (fillScan_placeOnly n _))
      · rfl
    · rfl

theorem fillRaster_placeOnly : ∀ (n : Nat) (s : State), PlaceOnly s (fillRaster n s)
  | 0, _ => rfl
  | n + 1, s => by
    unfold fillRaster; split
    · split
      · exact PlaceOnly.trans (t := setRaster _ { s with mem := _ }) rfl (fillRaster_placeOnly n _)
      · rfl
    · rfl

theorem fillReadout_placeOnly : ∀ (n : Nat) (s : State), PlaceOnly s (fillReadout n s)
  | 0, _ => rfl
  | n + 1, s => by
    unfold fillReadout; split
    · split
      · split
        · exact PlaceOnly.trans (t := { s with mem := { s.mem with readQ := _ }, rd := _ }) rfl (fillReadout_placeOnly n _)
        · rfl
      · rfl
    · rfl

theorem placeRequests_placeOnly (s : State) : PlaceOnly s (placeRequests s) :=
  ((fillScan_placeOnly _ s).trans (fillRaster_placeOnly _ _)).trans (fillReadout_placeOnly _ _)

end Sys2Proof.Machine
end

