-- ==== Sys2Proof/Laws/Link.lean ====
section
/-! SUPPORT. What an offer does to the link, and what the link's own operations leave alone. -/

namespace Sys2Proof.Machine

/-! ## Offers (R202) -/

@[simp] theorem offerLink_asm (n : Notice) (l : Link) : (offerLink n l).asm = l.asm := by
  unfold offerLink; split <;> [rfl; (split <;> rfl)]

@[simp] theorem offerLink_requests (n : Notice) (l : Link) : (offerLink n l).requests = l.requests := by
  unfold offerLink; split <;> [rfl; (split <;> rfl)]

@[simp] theorem offerLink_handover (n : Notice) (l : Link) : (offerLink n l).handover = l.handover := by
  unfold offerLink; split <;> [rfl; (split <;> rfl)]

@[simp] theorem offerLink_openCount (n : Notice) (l : Link) : (offerLink n l).openCount = l.openCount := by
  unfold offerLink; split <;> [rfl; (split <;> rfl)]

@[simp] theorem offerLink_replies (n : Notice) (l : Link) : (offerLink n l).replies = l.replies := by
  unfold offerLink; split <;> [rfl; (split <;> rfl)]

@[simp] theorem offerLink_sending (n : Notice) (l : Link) : (offerLink n l).sending = l.sending := by
  unfold offerLink; split <;> [rfl; (split <;> rfl)]

@[simp] theorem offerLink_lengthFaults (n : Notice) (l : Link) : (offerLink n l).lengthFaults = l.lengthFaults := by
  unfold offerLink; split <;> [rfl; (split <;> rfl)]

@[simp] theorem offerLink_crcFaults (n : Notice) (l : Link) : (offerLink n l).crcFaults = l.crcFaults := by
  unfold offerLink; split <;> [rfl; (split <;> rfl)]

@[simp] theorem offerLink_timeoutFaults (n : Notice) (l : Link) : (offerLink n l).timeoutFaults = l.timeoutFaults := by
  unfold offerLink; split <;> [rfl; (split <;> rfl)]

@[simp] theorem offerLink_unanswered (n : Notice) (l : Link) : (offerLink n l).unanswered = l.unanswered := by
  unfold offerLink; split <;> [rfl; (split <;> rfl)]

@[simp] theorem offerLink_resetPending (n : Notice) (l : Link) : (offerLink n l).resetPending = l.resetPending := by
  unfold offerLink; split <;> [rfl; (split <;> rfl)]

@[simp] theorem offerLink_outByte (n : Notice) (l : Link) : (offerLink n l).outByte = l.outByte := by
  unfold offerLink; split <;> [rfl; (split <;> rfl)]

/-- What an offer does to the notice queue: merged in place, appended, or dropped and counted. -/
theorem offerLink_notices (n : Notice) (l : Link) :
    (∃ qs, mergeInto n l.notices = some qs ∧ (offerLink n l).notices = qs) ∨
      (mergeInto n l.notices = none ∧ l.notices.length < 32 ∧ (offerLink n l).notices = l.notices ++ [n]) ∨
      (mergeInto n l.notices = none ∧ 32 ≤ l.notices.length ∧ (offerLink n l).notices = l.notices) := by
  unfold offerLink
  cases h : mergeInto n l.notices with
  | some qs => exact .inl ⟨qs, rfl, rfl⟩
  | none =>
    by_cases hl : l.notices.length < noticePlaces
    · exact .inr (.inl ⟨rfl, hl, by simp [hl]⟩)
    · exact .inr (.inr ⟨rfl, by simpa [noticePlaces] using hl, by simp [hl]⟩)

/-- A merge keeps the length of the queue. -/
theorem mergeInto_length {n : Notice} : ∀ {ns qs : List Notice}, mergeInto n ns = some qs → qs.length = ns.length
  | [], _, h => by simp [mergeInto] at h
  | q :: ns, qs, h => by
    unfold mergeInto at h
    cases hm : mergeNotice q n with
    | some m => simp [hm] at h; subst h; rfl
    | none =>
      simp only [hm, Option.map_eq_some_iff] at h
      obtain ⟨rest, hr, rfl⟩ := h
      simp [mergeInto_length hr]

/-! ## What the link's operations touch -/

theorem countFault_link (k : LinkFaultKind) (s : State) :
    countFault k s = { s with link := (countFault k s).link } := by cases k <;> rfl

theorem refuseFrame_link (r : Request) (c : Reason) (s : State) :
    refuseFrame r c s = { s with link := (refuseFrame r c s).link } := by
  unfold refuseFrame; split
  · rfl
  · exact countFault_link _ _

theorem acceptFrame_link (r : Request) (s : State) :
    acceptFrame r s = { s with link := (acceptFrame r s).link } := by
  unfold acceptFrame; split
  · exact refuseFrame_link _ _ _
  · exact refuseFrame_link _ _ _
  · split
    · rfl
    · exact refuseFrame_link _ _ _

theorem assemble_link (a : Assembly) (b : Byte) (s : State) :
    assemble a b s = { s with link := (assemble a b s).link } := by
  simp only [assemble]; split
  · exact countFault_link _ _
  · split
    · split
      · exact acceptFrame_link _ _
      · exact countFault_link _ _
    · rfl

/-- Taking a byte changes nothing outside the link. -/
theorem takeByte_link (b : Byte) (s : State) : takeByte b s = { s with link := (takeByte b s).link } := by
  unfold takeByte; split
  · exact assemble_link _ _ _
  · split <;> rfl

@[simp] theorem beginHandover_outByte (l : Link) : (beginHandover l).outByte = l.outByte := by
  unfold beginHandover; split <;> rfl

@[simp] theorem countFault_outByte (k : LinkFaultKind) (s : State) :
    (countFault k s).link.outByte = s.link.outByte := by cases k <;> exact offerLink_outByte _ _

theorem refuseFrame_outByte (r : Request) (c : Reason) (s : State) :
    (refuseFrame r c s).link.outByte = s.link.outByte := by
  unfold refuseFrame; split
  · rfl
  · exact countFault_outByte _ _

/-- Taking a byte leaves the byte that goes out in the same clock. -/
@[simp] theorem takeByte_outByte (b : Byte) (s : State) : (takeByte b s).link.outByte = s.link.outByte := by
  unfold takeByte; split
  · simp only [assemble]; split
    · exact countFault_outByte _ _
    · split
      · split
        · unfold acceptFrame; split
          · exact refuseFrame_outByte _ _ _
          · exact refuseFrame_outByte _ _ _
          · split
            · exact beginHandover_outByte _
            · exact refuseFrame_outByte _ _ _
        · exact countFault_outByte _ _
      · rfl
  · split <;> rfl

end Sys2Proof.Machine
end

