-- ==== Sys2Proof/Laws/Memory.lean ====
section
/-! SUPPORT. The laws of the memories: a read after a write, and that every operation keeps the canonical form. -/

namespace Sys2Proof.Machine

variable {d : Byte}

/-! ## One byte -/

@[simp] theorem memRead_nil (a : Nat) : memRead d [] a = d := rfl

/-- An address below every listed one is not listed. -/
theorem memRead_below {m : Memory} {a : Nat} (h : ∀ c ∈ m, a < c.1) : memRead d m a = d := by
  induction m with
  | nil => rfl
  | cons c m ih =>
    have hc := h c (by simp)
    simp only [memRead]
    rw [if_neg (by omega), ih fun x hx => h x (by simp [hx])]

/-- The tail of a canonical memory is canonical, above its head. -/
theorem Memory.wf_tail {c : Nat × Byte} {m : Memory} (h : Memory.wf d (c :: m)) : Memory.wf d m :=
  ⟨(List.pairwise_cons.1 h.1).2, fun x hx => h.2 x (by simp [hx])⟩

theorem Memory.wf_above {c : Nat × Byte} {m : Memory} (h : Memory.wf d (c :: m)) : ∀ x ∈ m, c.1 < x.1 :=
  (List.pairwise_cons.1 h.1).1

/-- A write lists no address but its own and those that were listed. -/
theorem memWrite_addr {m : Memory} {a : Nat} {v : Byte} :
    ∀ c ∈ memWrite d m a v, c.1 = a ∨ ∃ x ∈ m, x.1 = c.1 := by
  induction m with
  | nil => intro c hc; simp only [memWrite] at hc; split at hc <;> simp_all
  | cons x m ih =>
    intro c hc
    simp only [memWrite] at hc
    split at hc
    · split at hc
      · exact .inr ⟨c, hc, rfl⟩
      · rcases List.mem_cons.1 hc with rfl | hc
        · exact .inl rfl
        · exact .inr ⟨c, hc, rfl⟩
    · split at hc
      · split at hc
        · exact .inr ⟨c, by simp [hc], rfl⟩
        · rcases List.mem_cons.1 hc with rfl | hc
          · exact .inl rfl
          · exact .inr ⟨c, by simp [hc], rfl⟩
      · rcases List.mem_cons.1 hc with rfl | hc
        · exact .inr ⟨c, by simp, rfl⟩
        · exact (ih c hc).imp id fun ⟨y, hy, he⟩ => ⟨y, by simp [hy], he⟩

/-- A write keeps the canonical form. -/
theorem memWrite_wf {m : Memory} {a : Nat} {v : Byte} (h : Memory.wf d m) : Memory.wf d (memWrite d m a v) := by
  induction m with
  | nil => simp only [memWrite]; split <;> simp_all [Memory.wf]
  | cons x m ih =>
    have ht := Memory.wf_tail h
    have hab := Memory.wf_above h
    simp only [memWrite]
    split
    · split
      · exact h
      · refine ⟨List.pairwise_cons.2 ⟨fun y hy => ?_, h.1⟩, fun y hy => ?_⟩
        · rcases List.mem_cons.1 hy with rfl | hy
          · assumption
          · have := hab y hy; simp only; omega
        · rcases List.mem_cons.1 hy with rfl | hy
          · assumption
          · exact h.2 y hy
    · split
      · split
        · exact ht
        · refine ⟨List.pairwise_cons.2 ⟨fun y hy => ?_, ht.1⟩, fun y hy => ?_⟩
          · have := hab y hy; simp only; omega
          · rcases List.mem_cons.1 hy with rfl | hy
            · assumption
            · exact ht.2 y hy
      · have hw := ih ht
        refine ⟨List.pairwise_cons.2 ⟨fun y hy => ?_, hw.1⟩, fun y hy => ?_⟩
        · rcases memWrite_addr y hy with he | ⟨z, hz, he⟩
          · omega
          · have := hab z hz; omega
        · rcases List.mem_cons.1 hy with rfl | hy
          · exact h.2 y (by simp)
          · exact hw.2 y hy

/-- What one byte reads as after one byte was written. -/
theorem memRead_memWrite {m : Memory} {a : Nat} {v : Byte} (h : Memory.wf d m) (b : Nat) :
    memRead d (memWrite d m a v) b = if b = a then v else memRead d m b := by
  induction m with
  | nil =>
    by_cases hv : v = d <;> by_cases hb : b = a <;> simp_all [memWrite, memRead]
    intro he; exact absurd he.symm hb
  | cons x m ih =>
    have ht := Memory.wf_tail h
    have hab := Memory.wf_above h
    simp only [memWrite]
    split
    · rename_i hlt
      by_cases hb : b = a
      · subst hb
        split
        · rw [memRead_below fun c hc => ?_]
          · simp_all
          · rcases List.mem_cons.1 hc with rfl | hc
            · exact hlt
            · have := hab c hc; omega
        · simp [memRead]
      · split
        · simp
        · simp only [memRead, if_neg (Ne.symm hb)]
    · split
      · rename_i _ he
        subst he
        by_cases hb : b = x.1
        · subst hb
          split
          · rw [memRead_below hab]; simp_all
          · simp [memRead]
        · split <;> simp [memRead, Ne.symm hb]
      · simp only [memRead, ih ht]
        by_cases hb : b = a
        · subst hb; simp; intro he; omega
        · simp [hb]

/-! ## Runs of bytes -/

/-- Writing lanes keeps the canonical form. -/
theorem memWriteLanes_wf {ls : Lanes} : ∀ {m : Memory} {a : Nat}, Memory.wf d m → Memory.wf d (memWriteLanes d m a ls) := by
  induction ls with
  | nil => exact fun h => h
  | cons l ls ih => cases l <;> intro m a h <;> simp only [memWriteLanes] <;> [exact ih h; exact ih (memWrite_wf h)]

/-- What one byte reads as after lanes were written: its lane's byte, or what it read before where no lane or an empty lane
lies on it (R96). -/
theorem memRead_memWriteLanes {ls : Lanes} : ∀ {m : Memory} {a : Nat}, Memory.wf d m → ∀ b,
    memRead d (memWriteLanes d m a ls) b =
      if a ≤ b then (ls.getD (b - a) none).getD (memRead d m b) else memRead d m b := by
  induction ls with
  | nil => intro m a h b; simp [memWriteLanes]
  | cons l ls ih =>
    intro m a h b
    have hw : ∀ v, memRead d (memWrite d m a v) b = if b = a then v else memRead d m b :=
      fun v => memRead_memWrite h b
    by_cases hab : b = a
    · subst hab
      cases l with
      | none => rw [memWriteLanes, ih h]; simp
      | some v => rw [memWriteLanes, ih (memWrite_wf h), hw]; simp
    · by_cases hle : a ≤ b
      · have h1 : a + 1 ≤ b := by omega
        have h2 : b - a = (b - (a + 1)) + 1 := by omega
        cases l with
        | none => rw [memWriteLanes, ih h, if_pos h1, if_pos hle, h2]; rfl
        | some v => rw [memWriteLanes, ih (memWrite_wf h), hw, if_neg hab, if_pos h1, if_pos hle, h2]; rfl
      · have h1 : ¬ a + 1 ≤ b := by omega
        cases l with
        | none => rw [memWriteLanes, ih h, if_neg h1, if_neg hle]
        | some v => rw [memWriteLanes, ih (memWrite_wf h), hw, if_neg hab, if_neg h1, if_neg hle]

/-- Writing bytes keeps the canonical form. -/
theorem memWriteBytes_wf {m : Memory} {a : Nat} {bs : List Byte} (h : Memory.wf d m) :
    Memory.wf d (memWriteBytes d m a bs) := memWriteLanes_wf h

/-- What one byte reads as after bytes were written. -/
theorem memRead_memWriteBytes {m : Memory} {a : Nat} {bs : List Byte} (h : Memory.wf d m) (b : Nat) :
    memRead d (memWriteBytes d m a bs) b =
      if a ≤ b then bs.getD (b - a) (memRead d m b) else memRead d m b := by
  rw [memWriteBytes, memRead_memWriteLanes h]
  split
  · simp only [List.getD_eq_getElem?_getD, List.getElem?_map]
    cases bs[b - a]? <;> rfl
  · rfl

/-- A byte outside the bytes written reads as before, whatever the memory. -/
theorem memRead_memWriteBytes_outside {m : Memory} {a : Nat} {bs : List Byte} (h : Memory.wf d m) {b : Nat}
    (ho : b < a ∨ a + bs.length ≤ b) : memRead d (memWriteBytes d m a bs) b = memRead d m b := by
  rw [memRead_memWriteBytes h]
  split
  · rw [List.getD_eq_default _ _ (by omega)]
  · rfl

@[simp] theorem memSlice_length (m : Memory) (a n : Nat) : (memSlice d m a n).length = n := by simp [memSlice]

/-- A byte of a slice. -/
theorem memSlice_getElem? {m : Memory} {a n i : Nat} (h : i < n) : (memSlice d m a n)[i]? = some (memRead d m (a + i)) := by
  simp [memSlice, h]

/-- A slice in two parts. -/
theorem memSlice_add (m : Memory) (a n k : Nat) :
    memSlice d m a (n + k) = memSlice d m a n ++ memSlice d m (a + n) k := by
  simp [memSlice, List.range_add, Nat.add_assoc]

/-- Two memories that read alike over a range have the same slice there. -/
theorem memSlice_congr {m m' : Memory} {a n : Nat} (h : ∀ i, i < n → memRead d m (a + i) = memRead d m' (a + i)) :
    memSlice d m a n = memSlice d m' a n := by
  simp only [memSlice]
  exact List.map_congr_left fun i hi => h i (List.mem_range.1 hi)

/-- Bytes written read back. -/
theorem memSlice_memWriteBytes {m : Memory} {a : Nat} {bs : List Byte} (h : Memory.wf d m) :
    memSlice d (memWriteBytes d m a bs) a bs.length = bs := by
  apply List.ext_getElem?
  intro i
  by_cases hi : i < bs.length
  · rw [memSlice_getElem? hi, memRead_memWriteBytes h, if_pos (by omega)]
    simp [hi]
  · rw [List.getElem?_eq_none (by simpa using hi), List.getElem?_eq_none (by simpa using hi)]

/-! ## NV sectors -/

/-- Programming a record keeps the canonical form. -/
theorem programBytes_wf {nv : Memory} {sector offset : Nat} {r : List Byte} (h : Memory.wf nvDefault nv) :
    Memory.wf nvDefault (programBytes nv sector offset r) := memWriteBytes_wf h

/-- Erasing a sector keeps the canonical form. -/
theorem eraseSector_wf {nv : Memory} {sector : Nat} (h : Memory.wf nvDefault nv) :
    Memory.wf nvDefault (eraseSector nv sector) :=
  ⟨h.1.filter _, fun c hc => h.2 c (List.mem_filter.1 hc).1⟩

/-- What one byte reads as after a sector was erased (R162). -/
theorem memRead_eraseSector (nv : Memory) (sector b : Nat) :
    memRead nvDefault (eraseSector nv sector) b =
      if sector * 4096 ≤ b ∧ b < (sector + 1) * 4096 then nvDefault else memRead nvDefault nv b := by
  show _ = if sector * sectorBytes ≤ b ∧ b < (sector + 1) * sectorBytes then _ else _
  induction nv with
  | nil => simp [eraseSector]
  | cons c nv ih =>
    simp only [eraseSector, List.filter_cons] at ih ⊢
    by_cases hc : sector * sectorBytes ≤ c.1 ∧ c.1 < (sector + 1) * sectorBytes
    · rw [if_neg (by simp [hc.1, hc.2]), ih]
      by_cases hb : c.1 = b
      · subst hb; simp [hc]
      · simp [memRead, hb]
    · rw [if_pos (by rw [Bool.not_eq_true', ← Bool.decide_and]; exact decide_eq_false hc)]
      simp only [memRead, ih]
      by_cases hb : c.1 = b
      · subst hb; simp [hc]
      · simp [hb]

end Sys2Proof.Machine
end

