-- ==== Sys2Proof/Laws/Records.lean ====
section
/-! SUPPORT. The laws of stored records: what the store writes is intact, wherever it lies in its sector (R163, R164). -/

namespace Sys2Proof.Machine

@[simp] theorem withCrc_length (body : List Byte) : (withCrc body).length = body.length + 4 := by simp [withCrc]

@[simp] theorem recordHeader_length (k f sl t q : Nat) : (recordHeader k f sl t q).length = 12 := by simp [recordHeader]

theorem byteAt_append {a b : List Byte} {off : Nat} (h : off < a.length) : byteAt (a ++ b) off = byteAt a off := by
  simp [byteAt, List.getElem?_append_left h]

theorem fieldAt_append_left {a b : List Byte} {off n : Nat} (h : off + n ≤ a.length) :
    fieldAt (a ++ b) off n = fieldAt a off n := by
  simp only [fieldAt, slice]
  rw [List.drop_append_of_le_length (by omega), List.take_append_of_le_length (by simp; omega)]

/-- A body with the header a record of its kind and length has, and its CRC-32, is an intact record, whatever follows it
(R164). -/
theorem intactRecord_withCrc {body : List Byte} (tail : List Byte) (h12 : 13 ≤ body.length ∨ recKind body ≠ 1 ∧ 12 ≤ body.length)
    (hm : body.take 2 = [0x5D, 0x2E]) (h5 : byteAt body 5 = 1)
    (hl : recordLength (recKind body) (recFlags body) = some (body.length + 4)) (ht : recTotal body = body.length + 4)
    (h49 : recKind body = 1 → byteAt body 12 = 49) :
    intactRecord (withCrc body ++ tail) = some (withCrc body) := by
  have hn : 12 ≤ body.length := by omega
  have hb : withCrc body ++ tail = body ++ (leBytes 4 (crc32 body).toNat ++ tail) := by simp [withCrc]
  have hlen : (body ++ (leBytes 4 (crc32 body).toNat ++ tail)).length = body.length + 4 + tail.length := by simp; omega
  have hk : recKind (body ++ (leBytes 4 (crc32 body).toNat ++ tail)) = recKind body := byteAt_append (by omega)
  have hf : recFlags (body ++ (leBytes 4 (crc32 body).toNat ++ tail)) = recFlags body := byteAt_append (by omega)
  have htt : recTotal (body ++ (leBytes 4 (crc32 body).toNat ++ tail)) = recTotal body := fieldAt_append_left (by omega)
  have hcrc : fieldAt (body ++ (leBytes 4 (crc32 body).toNat ++ tail)) body.length 4 = (crc32 body).toNat :=
    fieldAt_append rfl (by have := (crc32 body).isLt; omega)
  have htake : (body ++ (leBytes 4 (crc32 body).toNat ++ tail)).take (body.length + 4) = withCrc body := by
    rw [← List.append_assoc, ← withCrc, List.take_append_of_le_length (by simp), List.take_of_length_le (by simp)]
  rw [hb]
  simp only [intactRecord, hlen, hk, hf, htt, hl, ht, Nat.add_sub_cancel]
  rw [if_neg (by omega), if_neg, if_neg (by omega), List.take_left, if_neg (by simp [hcrc]), if_neg, htake]
  · rintro ⟨h1, h2⟩
    exact h2 (by rw [byteAt_append (by omega)]; exact h49 h1)
  · rintro (h | h)
    · exact h (by rw [List.take_append_of_le_length (by omega)]; exact hm)
    · exact h (by rw [byteAt_append (by omega)]; exact h5)

/-- The length of the parameter block. -/
theorem paramBlock_length {vals : List Int} (h : vals.length = 49) : (paramBlock vals).length = 245 := by
  have hc : catalogue.length = 49 := by decide
  have : ((catalogue.zip vals).flatMap fun p => BitVec.ofNat 8 p.1.id :: leInt 4 p.2).length =
      (catalogue.zip vals).length * 5 := by
    generalize catalogue.zip vals = l
    induction l with
    | nil => rfl
    | cons p l ih => simp only [List.flatMap_cons, List.length_append, List.length_cons, leInt_length, ih]; omega
  rw [paramBlock, this, List.length_zip, hc, h]; rfl

theorem zoneBytes_length (z : Zone) : (zoneBytes z).length = 4 := by simp [zoneBytes]

/-- The length of a mask section's bytes. -/
theorem maskBytes_length {zones : List Zone} (h : zones.length = 200) : (maskBytes zones).length = 800 := by
  have : ∀ l : List Zone, (l.flatMap zoneBytes).length = l.length * 4 := by
    intro l
    induction l with
    | nil => rfl
    | cons z l ih => simp only [List.flatMap_cons, List.length_append, zoneBytes_length, ih, List.length_cons]; omega
  rw [maskBytes, this, h]

/-- The length of a Setup record's flags and the length they give (R164). -/
theorem recordLength_setup (prot hasMask hasLabel : Bool) :
    recordLength 1 (setupFlags prot hasMask hasLabel) =
      some (262 + (if hasMask then 800 else 0) + (if hasLabel then 32 else 0)) := by
  cases prot <;> cases hasMask <;> cases hasLabel <;> rfl

/-- A Setup record's body, with the mask section and the label as bytes, is intact where it lies (R163, R164). -/
theorem intactRecord_setupBody {slot seq flags : Nat} {block mask label : List Byte} (tail : List Byte)
    (hb : block.length = 245) (hf : flags < 256) (hs : mask.length + label.length ≤ 832)
    (hl : recordLength 1 flags = some (262 + mask.length + label.length)) :
    intactRecord (withCrc (recordHeader 1 flags slot (262 + mask.length + label.length) seq ++
        ([49] ++ (block ++ (mask ++ label)))) ++ tail) =
      some (withCrc (recordHeader 1 flags slot (262 + mask.length + label.length) seq ++
        ([49] ++ (block ++ (mask ++ label))))) := by
  have hlen : (recordHeader 1 flags slot (262 + mask.length + label.length) seq ++
      ([49] ++ (block ++ (mask ++ label)))).length = 258 + mask.length + label.length := by
    simp only [List.length_append, hb, recordHeader_length, List.length_cons, List.length_nil]; omega
  have h1 : recFlags (recordHeader 1 flags slot (262 + mask.length + label.length) seq ++
      ([49] ++ (block ++ (mask ++ label)))) = flags := by
    rw [recFlags, byteAt_append (by simp)]; simp [byteAt, recordHeader]; omega
  have h2 : recKind (recordHeader 1 flags slot (262 + mask.length + label.length) seq ++
      ([49] ++ (block ++ (mask ++ label)))) = 1 := by
    rw [recKind, byteAt_append (by simp)]; simp [byteAt, recordHeader]
  apply intactRecord_withCrc
  · left; rw [hlen]; omega
  · simp [recordHeader]
  · simp [recordHeader, byteAt]
  · rw [hlen, h1, h2, hl]; congr 1; omega
  · rw [hlen, recTotal, fieldAt_append_left (by simp), recordHeader, List.append_assoc,
      fieldAt_append (by rfl) (by omega)]
    omega
  · intro
    rw [byteAt, List.getD_eq_getElem?_getD, List.getElem?_append_right (by simp), recordHeader_length]
    rfl

/-- A Setup record is intact where it lies (R163, R164). -/
theorem intactRecord_setup {slot seq : Nat} {prot : Bool} {vals : List Int} {mask : Option (List Zone)}
    {label : Option (List Byte)} (tail : List Byte) (hv : vals.length = 49) (hm : ∀ z, mask = some z → z.length = 200)
    (hla : ∀ l, label = some l → l.length = 32) :
    intactRecord (setupRecord slot seq prot vals mask label ++ tail) =
      some (setupRecord slot seq prot vals mask label) := by
  have hp := paramBlock_length hv
  have hfl : setupFlags prot mask.isSome label.isSome < 256 := by
    cases prot <;> cases mask.isSome <;> cases label.isSome <;> decide
  have hr := recordLength_setup prot mask.isSome label.isSome
  have key : ∀ m l : List Byte, (m.length = if mask.isSome then 800 else 0) → (l.length = if label.isSome then 32 else 0) →
      setupRecord slot seq prot vals mask label = withCrc (recordHeader 1 (setupFlags prot mask.isSome label.isSome) slot
        (262 + m.length + l.length) seq ++ ([49] ++ (paramBlock vals ++ (m ++ l)))) →
      intactRecord (setupRecord slot seq prot vals mask label ++ tail) =
        some (setupRecord slot seq prot vals mask label) := by
    intro m l h1 h2 h3
    rw [h3]
    exact intactRecord_setupBody tail hp hfl (by rw [h1, h2]; split <;> split <;> omega) (by rw [hr, h1, h2])
  cases mask with
  | none =>
    cases label with
    | none => exact key [] [] rfl rfl (by simp only [setupRecord, hr, List.append_assoc]; rfl)
    | some l => exact key [] l rfl (hla l rfl) (by simp only [setupRecord, hr, List.append_assoc, hla l rfl]; rfl)
  | some z =>
    have hz := maskBytes_length (hm z rfl)
    cases label with
    | none => exact key (maskBytes z) [] hz rfl (by simp only [setupRecord, hr, List.append_assoc, hz]; rfl)
    | some l =>
      exact key (maskBytes z) l hz (hla l rfl) (by simp only [setupRecord, hr, List.append_assoc, hz, hla l rfl]; rfl)

/-- The factory area's records are intact (R163). -/
theorem factoryRecords_intact : ∀ r ∈ factoryRecords, isIntact r = true := by
  have hlabel : ∀ p ∈ factorySetups, p.1.length = 49 ∧ (labelBytes p.2).length = 32 := by decide
  intro r hr
  obtain ⟨⟨k, p⟩, hk, rfl⟩ := List.mem_map.1 hr
  obtain ⟨h1, h2⟩ := hlabel p (List.of_mem_zip hk).2
  have := intactRecord_setup (slot := k) (seq := 0) (prot := true) (mask := none) (label := some (labelBytes p.2)) [] h1
    (fun z h => by cases h) (fun l h => by cases h; exact h2)
  rw [List.append_nil] at this
  simp [isIntact, this]

end Sys2Proof.Machine
end

