-- ==== Sys2Proof/Laws/Scheduler.lean ====
section
/-! SUPPORT. What one memory slot can do, said once, and the bounds that the queues keep (R98 to R108). -/

namespace Sys2Proof.Machine

/-- A slot carries nothing, starts a refresh, grants a burst, or faults on a burst outside the DRAM (R100, R96). -/
theorem memorySlot_cases (s : State) :
    (memorySlot s = .next (placeRequests (idleSlot s)) ∧
        (s.mem.refreshing.isSome = true ∨ refreshStarts s = false ∧ chooseClass s = none)) ∨
      (memorySlot s = .next (placeRequests (startRefresh s)) ∧ s.mem.refreshing = none ∧ refreshStarts s = true) ∨
      (∃ c q, memorySlot s = .next (placeRequests (grant c q s)) ∧ s.mem.refreshing = none ∧ refreshStarts s = false ∧
        chooseClass s = some c ∧ classHead s c = some q ∧ q.addr + 64 ≤ 268435456) ∨
      (∃ c q, memorySlot s = .fault (.noSuchAddress q.addr) ∧ chooseClass s = some c ∧ classHead s c = some q ∧
        268435456 < q.addr + 64) := by
  unfold memorySlot
  cases hr : s.mem.refreshing with
  | some d => exact .inl ⟨rfl, .inl rfl⟩
  | none =>
    cases hs : refreshStarts s with
    | true => exact .inr (.inl ⟨rfl, rfl, rfl⟩)
    | false =>
      cases hc : chooseClass s with
      | none => exact .inl ⟨by simp [grantSlot, hc, thenPlace], .inr ⟨rfl, rfl⟩⟩
      | some c =>
        have hh : (classHead s c).isSome = true := by
          have hm : c ∈ classesByPriority.filter (classEligible s) := by
            simp only [chooseClass] at hc
            split at hc
            · exact (List.mem_filter.1 (List.mem_of_head? hc)).1
            · exact List.mem_of_head? hc
          have he := (List.mem_filter.1 hm).2
          unfold classEligible at he
          cases hq : classHead s c <;> simp [hq] at he ⊢
        obtain ⟨q, hq⟩ := Option.isSome_iff_exists.1 hh
        by_cases hd : q.addr + 64 ≤ 268435456
        · refine .inr (.inr (.inl ⟨c, q, ?_, rfl, rfl, rfl, hq, hd⟩))
          simp [grantSlot, hc, hq, inDram, dramBytes, hd, thenPlace]
        · refine .inr (.inr (.inr ⟨c, q, ?_, rfl, hq, by omega⟩))
          simp [grantSlot, hc, hq, inDram, dramBytes, hd, thenPlace]

/-- A granted write keeps the DRAM's canonical form. -/
theorem dramAfter_wf {q : MemReq} {m : Memory} (h : Memory.wf dramDefault m) : Memory.wf dramDefault (dramAfter q m) := by
  unfold dramAfter; split <;> [exact memWriteLanes_wf h; exact h]

/-- A granted write changes no byte outside its 64 lanes, and no lane without data (R96). -/
theorem memRead_dramAfter {q : MemReq} {m : Memory} (h : Memory.wf dramDefault m) (b : Nat) :
    memRead dramDefault (dramAfter q m) b =
      match q.write with
      | some lanes => if q.addr ≤ b then (lanes.getD (b - q.addr) none).getD (memRead dramDefault m b)
        else memRead dramDefault m b
      | none => memRead dramDefault m b := by
  unfold dramAfter
  cases q.write <;> [rfl; exact memRead_memWriteLanes h b]

theorem fillScan_bound : ∀ (n : Nat) (s : State), s.mem.scanQ.length ≤ 16 → (fillScan n s).mem.scanQ.length ≤ 16
  | 0, _, h => h
  | n + 1, s, h => by
    unfold fillScan; split
    · rename_i hl
      split
      · rename_i q t ht
        have he : t.mem = s.mem := by
          revert ht; simp only [scanNext, countHead]
          split
          · split
            · intro h; cases h; rfl
            · split
              · split <;> intro h <;> cases h; rfl
              · intro h; cases h
          · split
            · split <;> intro h <;> cases h; rfl
            · intro h; cases h
        apply fillScan_bound n
        simp only [scanPlaces] at hl
        simp only [he, List.length_append, List.length_singleton]; omega
      · exact h
    · exact h

theorem fillRaster_bound : ∀ (n : Nat) (s : State), s.mem.rasterQ.length ≤ 16 → (fillRaster n s).mem.rasterQ.length ≤ 16
  | 0, _, h => h
  | n + 1, s, h => by
    unfold fillRaster; split
    · rename_i hl
      split
      · apply fillRaster_bound n
        simp only [rasterPlaces] at hl
        simp only [setRaster_mem, List.length_append, List.length_singleton]; omega
      · exact h
    · exact h

theorem fillReadout_bound : ∀ (n : Nat) (s : State), s.mem.readQ.length ≤ 8 → (fillReadout n s).mem.readQ.length ≤ 8
  | 0, _, h => h
  | n + 1, s, h => by
    unfold fillReadout; split
    · rename_i hl
      split
      · split
        · apply fillReadout_bound n
          simp only [readoutPlaces] at hl
          simp only [List.length_append, List.length_singleton]; omega
        · exact h
      · exact h
    · exact h

/-- A burst that arrives leaves the gather queue within its 64 places (R76). -/
theorem pushBurst_bound (b : CapBurst) {s : State} (h : s.cap.gather.length ≤ 64) :
    (pushBurst b s).cap.gather.length ≤ 64 := by
  unfold pushBurst; split
  · rename_i hl; simp only [gatherPlaces] at hl; simp only [List.length_append, List.length_singleton]; omega
  · exact h

/-- The counts of passes stay within 16, and there is one for each class (R105). -/
theorem passAfter_bound (s : State) (c : MemClass) : (passAfter s c).length = 4 ∧ ∀ n ∈ passAfter s c, n ≤ 16 := by
  refine ⟨rfl, fun n hn => ?_⟩
  simp only [passAfter, List.mem_map] at hn
  obtain ⟨x, -, rfl⟩ := hn
  split <;> [omega; (split <;> omega)]

end Sys2Proof.Machine
end

