-- ==== Sys2Proof/Laws/Store.lean ====
section
/-! SUPPORT. The laws of the lock table, of the records the store writes, and of what a scan finds of them (R163, R167, R169, R182,
R183). -/

namespace Sys2Proof.Machine

variable {pre post locks : List Lock} {slot n m : Nat} {want : Bool}

/-- A slot without an entry has no lock. -/
theorem lockOf_none (h : ∀ l ∈ locks, l.slot ≠ slot) : lockOf locks slot = none := by
  simpa [lockOf] using h

/-- The only entry of a slot is its lock. -/
theorem lockOf_some (h : ∀ l ∈ pre ++ post, l.slot ≠ slot) :
    lockOf (pre ++ ⟨slot, n, want⟩ :: post) slot = some ⟨slot, n, want⟩ := by
  have hp : pre.find? (fun l => l.slot == slot) = none := by
    simp only [List.find?_eq_none, beq_iff_eq]
    exact fun x hx => h x (by simp [hx])
  simp [lockOf, hp]

/-- A new count goes to the slot's entry alone. -/
theorem setCount_eq (h : ∀ l ∈ pre ++ post, l.slot ≠ slot) :
    setCount slot m (pre ++ ⟨slot, n, want⟩ :: post) = pre ++ ⟨slot, m, want⟩ :: post := by
  have g : ∀ l : List Lock, (∀ x ∈ l, x.slot ≠ slot) →
      l.map (fun l => if l.slot = slot then { l with count := m } else l) = l := by
    intro l hl
    conv => rhs; rw [← List.map_id l]
    exact List.map_congr_left fun a ha => by simp [hl a ha]
  simp only [setCount, List.map_append, List.map_cons, if_true]
  rw [g pre fun x hx => h x (by simp [hx]), g post fun x hx => h x (by simp [hx])]

/-- Freeing removes the slot's entry alone. -/
theorem filter_slot_eq (h : ∀ l ∈ pre ++ post, l.slot ≠ slot) :
    (pre ++ ⟨slot, n, want⟩ :: post).filter (fun e => e.slot != slot) = pre ++ post := by
  rw [List.filter_append, List.filter_cons_of_neg (by simp), List.filter_eq_self.2 fun a ha => by
    simpa using h a (by simp [ha]), List.filter_eq_self.2 fun a ha => by simpa using h a (by simp [ha])]

@[simp] theorem deletionRecord_length (slot seq : Nat) : (deletionRecord slot seq).length = 16 := by
  simp [deletionRecord]

@[simp] theorem controlRecord_length (slot seq : Nat) : (controlRecord slot seq).length = 17 := by
  simp [controlRecord]

/-- A factory record reads back, in any state that holds the factory area (R163). -/
theorem readRecord_factory {s : State} {k : Nat} {r : List Byte} (hf : s.store.factory = factoryRecords)
    (hr : factoryRecords[k]? = some r) : readRecord s (.factory k) = some r := by
  have hd : s.store.factory.getD k [] = r := by rw [hf, List.getD_eq_getElem?_getD, hr]; rfl
  simp only [readRecord, hd, factoryRecords_intact r (List.mem_of_getElem? hr), if_true]

/-! ## Programs that power cuts off (R169) -/

/-- A program that power cut off keeps the canonical form. -/
theorem cutProgram_wf {cut : Nat} {nv : Memory} {sector offset : Nat} {r : List Byte} (h : Memory.wf nvDefault nv) :
    Memory.wf nvDefault (cutProgram cut nv sector offset r) := by
  simp only [cutProgram]; split <;> exact programBytes_wf h

/-- A program that power cut off touches no byte outside its record (R169). -/
theorem memRead_cutProgram_outside {cut : Nat} {nv : Memory} {sector offset a : Nat} {r : List Byte}
    (h : Memory.wf nvDefault nv) (hr : r ≠ [])
    (ha : a < sector * 4096 + offset ∨ sector * 4096 + offset + r.length ≤ a) :
    memRead nvDefault (cutProgram cut nv sector offset r) a = memRead nvDefault nv a := by
  have hp : 0 < r.length := List.length_pos_iff.2 hr
  have hl : (partialBytes cut r).length ≤ r.length := by simp [partialBytes]; omega
  have ht : (r.take 1).length ≤ r.length := by simp
  have hs : sectorBytes = 4096 := rfl
  simp only [cutProgram]
  split <;> exact memRead_memWriteBytes_outside h (by rw [hs]; omega)

/-! ## The scan of a sector (R167) -/

/-- A power-on record is intact where it lies (R163, R164). -/
theorem intactRecord_control {slot seq : Nat} (tail : List Byte) :
    intactRecord (controlRecord slot seq ++ tail) = some (controlRecord slot seq) := by
  refine intactRecord_withCrc tail ?_ ?_ ?_ ?_ ?_ ?_ <;> simp [recordHeader, recKind, recTotal, byteAt, recordLength]
  rfl

variable {nv : Memory} {k offset : Nat} {bytes : List Byte}

/-- Bytes that lie at a place and are an intact record, whatever follows, are the record there. -/
theorem recordAt_of_slice (hs : memSlice 0xFF nv (k * 4096 + offset) bytes.length = bytes) (hl : offset + bytes.length ≤ 4096)
    (hi : ∀ tail, intactRecord (bytes ++ tail) = some bytes) (he : ¬ ErasedPair nv k offset) : RecordAt nv k offset bytes := by
  refine ⟨he, ?_⟩
  have : 4096 - offset = bytes.length + (4096 - offset - bytes.length) := by omega
  rw [sectorTail, sectorBytes, this, memSlice_add, nvDefault, hs, hi]

/-- The scan of a sector whose first bytes are erased goes no further. -/
theorem reached_erased (he : ErasedPair nv k 0) (h : Reached nv k offset) : offset = 0 := by
  induction h with
  | start => rfl
  | next _ hr ih => exact absurd (ih ▸ he) hr.1

/-- The scan of a sector that holds one record and then erased bytes comes to its end and no further. -/
theorem reached_one (hr : RecordAt nv k 0 bytes) (he : ErasedPair nv k bytes.length) (h : Reached nv k offset) :
    offset = 0 ∨ offset = bytes.length := by
  induction h with
  | start => exact .inl rfl
  | next _ hr' ih =>
    rcases ih with rfl | rfl
    · have := hr.2.symm.trans hr'.2
      cases this
      exact .inr (Nat.zero_add _)
    · exact absurd he hr'.1

end Sys2Proof.Machine
end

