-- ==== Sys2Proof/Laws/Trigger.lean ====
section
/-! SUPPORT. The laws of the timers that a sample can meet, and of the engine before a sample (R56, R58, R62). -/

namespace Sys2Proof.Machine

variable {s : State} {due : Tick} {w : Timer}

/-- The expiry of a timer that meets a sample comes from the tick before its due tick on (R58, R62; log 10). -/
@[simp] theorem timerMeets_some : timerMeets s (some due) = true ↔ due.toNat ≤ s.trig.timestamp.toNat + 1 :=
  decide_eq_true_iff

@[simp] theorem timerMeets_none : timerMeets s none = false := rfl

/-- A timer that is due meets the sample too: its expiry can still come after it. -/
theorem timerMeets_of_timerDue (h : timerDue s w = true) : timerMeets s w = true := by
  cases w with
  | none => cases h
  | some due => exact timerMeets_some.2 (Nat.le_succ_of_le (BitVec.le_def.1 (of_decide_eq_true h)))

/-- Before a sample the engine is as it was, but for the external input's level, which is low under Pattern (R56). -/
theorem beforeSample_eq (s : State) :
    beforeSample s = { s.trig with extLevel := decide (s.cap.input = .adc) && s.trig.extLevel } := by
  unfold beforeSample
  cases h : s.cap.input <;> simp

end Sys2Proof.Machine
end

