-- ==== Sys2Proof/WellFormed.lean ====
section
/-! DEFINITION. Which commands are well-formed: a command that names a key or a knob names one the panel has.
All other operands are bit patterns of their full width, every value of which the part can meet. -/

namespace Sys2Proof

/-- The front panel has 64 keys, 0..63 (R26). -/
def keyOk (key : Nat) : Bool := key < 64

/-- The front panel has 8 knobs, 0..7 (R31). -/
def knobOk (knob : Nat) : Bool := knob < 8

/-- The command names only keys and knobs that exist. -/
def Instr.wellFormed : Instr → Bool
  | .debounceExpiry key => keyOk key
  | .knobLineChange knob _ => knobOk knob
  | .quickTimerExpiry knob => knobOk knob
  | .powerOn | .hostClockedByte _ | .frameTimeout | .echo | .getStatus | .reset | .setParams | .getParams
  | .setPanelMode | .setKeyBinding | .setKnobBinding | .setKnobShape | .setLampBinding | .setLamp | .getPanel
  | .forceTrigger | .run | .stop | .single | .setWatermark | .setInput | .clearPersist | .writeMask
  | .clearMask | .readMask | .clearMaskCounts | .writeOverlay | .fillOverlay | .writePalette | .setWaveArea
  | .save | .recall | .delete | .protect | .listSlots | .exportSlot | .importSlot | .setPowerOn | .hold
  | .release | .getSegments | .readWave | .programCompletion | .eraseCompletion | .rebuildDone
  | .recallChangeSet | .panelRecall | .panelChangeSet | .runStopToggle | .keySingle | .keyForceTrigger
  | .keyClearPersist | .keyScan _ | .triggeredPulseExpiry | .tick _ _ _ _ _ | .holdoffExpiry
  | .autoTimerExpiry | .settleTimerExpiry | .memorySlot | .maskTest | .refreshIntervalExpiry
  | .refreshCompletion | .lineStart | .powerLoss => true

end Sys2Proof
end

