-- ==== Sys2Proof/Tests/Slice0.lean ====
section
/-! SUPPORT. Tests: the checks of WellFormed, worked examples of the spec, and for each obligation with hypotheses a witness that
meets them, clause by clause at boundary values. -/

open Sys2Proof Sys2Proof.Machine

namespace Sys2Proof.Tests

/-! ## WellFormed refuses what the panel does not have -/

theorem test_wellFormed_refuses_key64 : (Instr.debounceExpiry 64).wellFormed = false := by decide
theorem test_wellFormed_refuses_knob8_lines : (Instr.knobLineChange 8 0).wellFormed = false := by decide
theorem test_wellFormed_refuses_knob8_quick : (Instr.quickTimerExpiry 8).wellFormed = false := by decide
theorem test_wellFormed_takes_last_key : (Instr.debounceExpiry 63).wellFormed = true := by decide

/-! ## No word spells a command -/

theorem test_no_word_spells_a_command : decodeTableWord 0 0 = none ∧ decodeTableWord 8 0xA5 = none := by decide

/-! ## Worked examples of the spec -/

/-- R194: over "123456789" the CRC-16 gives 0x29B1. -/
theorem test_crc16_check :
    crc16 [0x31, 0x32, 0x33, 0x34, 0x35, 0x36, 0x37, 0x38, 0x39] = 0x29B1#16 := by decide +kernel

/-- R70: with D = 20, a sum of 2,570 gives 129 and one of 2,569 gives 128. -/
theorem test_mean_rounds :
    pointBytes 2 20 ⟨0, 0, 0, 2570⟩ = [129] ∧ pointBytes 2 20 ⟨0, 0, 0, 2569⟩ = [128] := by decide

/-- R31: the forward Gray sequence, one reverse step and one illegal one. -/
theorem test_gray_steps :
    classify 0 1 = .forward ∧ classify 1 3 = .forward ∧ classify 3 2 = .forward ∧ classify 2 0 = .forward ∧
      classify 1 0 = .reverse ∧ classify 0 3 = .illegal := by decide

/-- R31: detents of four, two and one transitions. -/
theorem test_per_detent : perDetent 1 = 4 ∧ perDetent 2 = 2 ∧ perDetent 4 = 1 := by decide

/-- 02, Worked turn: m at the third and at the seventh quick detent, with H = 2, Rr = 2, M = 10. -/
theorem test_acceleration :
    (accelerate none true { knobAtReset 5 0 with quick := some 0, run := 2, mult := 1 }).mult = 3 ∧
      (accelerate none true { knobAtReset 5 0 with quick := some 0, run := 6, mult := 9 }).mult = 10 := by decide

/-- 06, Worked case of a compressed column: rows 180 to 192, joined from row 192; Dots hits the own ends only. -/
theorem test_compressed_column :
    let rows := pointRows 10 false ([127, 130, 131, 133, 129, 128].map fun c => (c, c))
    compressedColumn true 5000 1 rows 0 = (⟨180, 192, false, false⟩, [(180, 192)]) ∧
      (compressedColumn false 5000 1 rows 0).2 = [(180, 180), (190, 190)] := by decide

/-- 06, Worked case of an expanded point: −1.8 rounds to −2 and −3.6 to −4; halves go away from zero (R125). -/
theorem test_expanded_rounding : roundAway (-9) 5 = -2 ∧ roundAway (-18) 5 = -4 ∧ roundAway 5 2 = 3 ∧
    roundAway (-9) 2 = -5 := by decide

/-- 07, Worked test: column 3 of zone 0 rises to 170, above 175, and zone 199's columns are clipped at the top. -/
theorem test_zones :
    outsideZone (.bounded 175 195) ⟨180, 192, false, false⟩ = false ∧
      outsideZone (.bounded 175 195) ⟨170, 183, false, false⟩ = true ∧
      outsideZone (.bounded 0 399) ⟨0, 25, true, false⟩ = true ∧
      outsideZone .unbounded ⟨0, 25, true, false⟩ = false := by decide

/-- 08, Worked composition: indices 29, 40, 2 and the colours of indices 29, 40 and 200. -/
theorem test_composition :
    areaIndex 0 [(1, 216), (3, 40)] 157 501 = 29 ∧ areaIndex 0 [(2, 128), (4, 128)] 110 560 = 40 ∧
      areaIndex 0 [(1, 0)] 200 500 = 2 ∧ defaultColour 29 = 0xDFDF00#24 ∧ defaultColour 40 = 0x008F8F#24 ∧
      defaultColour 200 = 0xC8C8C8#24 := by decide

/-- 10, Worked read across the ring wrap: four bursts, at 1,920, 1,984, 1,024 and 1,088. -/
theorem test_read_across_wrap :
    (runReads 1024 1000 1 730 200 150).map (·.addr) = [1920, 1984, 1024, 1088] ∧
      ((runReads 1024 1000 1 730 200 150).map (·.n)).sum = 150 := by decide

/-- R9 and 01, Worked sequence: four channels in Peak mode at 1 M points take 8,000,000 bytes a segment, and 100 segments are
lowered to 32. -/
theorem test_capacity :
    segmentBytes 4 (effLength 3 12) (bytesPerPoint 1) = 8000000 ∧ captureRegionBytes / 8000000 = 32 := by decide

/-- R96: the bank and row of the last byte of the DRAM. -/
theorem test_last_bank_and_row : bankOf 268435455 = 7 ∧ rowOf 268435455 = 4095 := by decide

/-- R13: the front-end word of CH2 with the defaults. -/
theorem test_front_word : frontWord defaultValues 2 = 0x0025#16 := by decide

/-- R201: a powered part with empty queues sends 0x00. -/
theorem test_filler : (sendNext (chooseIfIdle (linkAtReset 7))).outByte = 0 := by decide

/-! ## Witnesses of the obligations' hypotheses -/

/-- A request of a kind, with tag 7. -/
def req (kind : Byte) (payload : List Byte) : Request := ⟨kind, 7, payload⟩

/-- The state after reset with the power-on load and Run behind it, and a request in hand-over. -/
def ready (r : Request) : State :=
  { State.reset with
    setup := { setupAtPowerOn with loadApplied := true }
    cap := { captureAtPowerOn with runTaken := true }
    link := { linkAtReset 0 with handover := some r } }

/-- The palette has its 256 entries. -/
theorem palette_length : scanAtPowerOn.palette.length = 256 := by decide +kernel

/-- Every request is in hand-over in some state, with the part powered, the load applied and the Run taken. -/
theorem in_handover (kind : Byte) (p : List Byte) : InHandover kind (req kind p) (ready (req kind p)) ∧
    (ready (req kind p)).setup.loadApplied = true ∧ (ready (req kind p)).cap.runTaken = true ∧
    (ready (req kind p)).setup.values.length = 49 ∧ (ready (req kind p)).panel.keys.length = 64 ∧
    (ready (req kind p)).panel.knobs.length = 8 ∧ (ready (req kind p)).panel.lamps.length = 32 ∧
    (ready (req kind p)).scan.palette.length = 256 := ⟨⟨rfl, rfl, rfl⟩, rfl, rfl, rfl, rfl, rfl, rfl, palette_length⟩

/-! ### The queue, power and the link -/

theorem witness_StepRunsFrontCommand : ∃ (c : Instr) (rest : List Instr) (s : State), s.pending = c :: rest :=
  ⟨.powerOn, [], { State.reset with pending := [.powerOn] }, rfl⟩

/-- An NV program, a copy, an erase and the rebuild's erase in progress. -/
def withWork (stage : StoreStage) : State :=
  { State.reset with store := { storeAtPowerOn factoryRecords with
      inFlight := some ⟨⟨7, .setPowerOn 0⟩, controlRecord 0 1, false, false, stage⟩ } }

theorem witness_PowerLossTouchesOnlyNvWorkInProgress :
    State.reset.powered = true ∧ State.reset.store.inFlight = none ∧
      (withWork (.programming 31 4079)).store.rebuildErase = none ∧ controlRecord 0 1 ≠ [] ∧
      (∃ f, (withWork (.erasing 31 none)).store.inFlight = some f ∧ f.stage = .erasing 31 none) ∧
      (∃ f rec, (withWork (.copying 0 31 rec 0 [])).store.inFlight = some f ∧
        f.stage = .copying 0 31 rec 0 [] ∧ 1 ≤ rec.len) ∧
      ∃ s : State, s.powered = true ∧ s.store.rebuildErase = some 31 :=
  ⟨rfl, rfl, rfl, by simp [controlRecord, withCrc, recordHeader], ⟨_, rfl, rfl⟩, ⟨_, ⟨0, 16⟩, rfl, rfl, by decide⟩,
    { State.reset with store := { storeAtPowerOn [] with rebuildErase := some 31 } }, rfl, rfl⟩

/-- A record cut off as it fills the last bytes of the area, and one cut off as it is copied from sector 0. -/
theorem witness_PowerLossTouchesOnlyNvWorkInProgress_cut :
    isIntact (controlRecord 0 1) = true ∧ 4079 + (controlRecord 0 1).length = 4096 ∧ Memory.wf 0xFF (withWork (.programming 31 4079)).nv ∧
      (∀ i, i < 17 → memRead 0xFF (withWork (.programming 31 4079)).nv (31 * 4096 + 4079 + i) = 0xFF) ∧
      (let nv := programBytes [] 0 0 (controlRecord 0 1)
       Memory.wf 0xFF nv ∧ isIntact (memSlice 0xFF nv (0 * 4096 + 0) 17) = true ∧
        ∀ i, i < 17 → memRead 0xFF nv (31 * 4096 + 4079 + i) = 0xFF) := by decide +kernel

/-- The framer with one byte left, or more, of a frame of some origin. -/
def sendingFrame (pos : Nat) (o : ReplyOrigin) (replies : List Reply) (notices : List Notice) : State :=
  { State.reset with link := { linkAtReset 0 with
      sending := some ⟨[0xA5, 0x80, 7, 0, 0, 1, 2], pos, o⟩, openCount := 16, replies := replies, notices := notices } }

theorem witness_ResetDoneLastByteResetsEveryBlock :
    ∃ f, (sendingFrame 6 .resetDone [] []).link.sending = some f ∧ f.origin = .resetDone ∧
      f.frame.length = f.pos + 1 := ⟨_, rfl, rfl, rfl⟩

theorem witness_FramerSendsFramesWholeAndInOrder :
    (0x00#8 ≠ 0xA5) ∧ (sendingFrame 6 .accepted [] []).link.asm = none ∧
      (∃ f, (sendingFrame 0 .accepted [] []).link.sending = some f ∧ f.pos + 1 < f.frame.length) ∧
      (∃ f, (sendingFrame 6 .notice [] []).link.sending = some f ∧ f.frame.length = f.pos + 1 ∧
        f.origin ≠ .resetDone) ∧
      (∃ p ps, (sendingFrame 6 .accepted [⟨0x80, 7, [], .accepted⟩] []).link.replies = p :: ps) ∧
      (∃ n ns, (sendingFrame 6 .accepted [] [.panelMode .remote]).link.replies = [] ∧
        (sendingFrame 6 .accepted [] [.panelMode .remote]).link.notices = n :: ns) :=
  ⟨by decide, rfl, ⟨_, rfl, by decide⟩, ⟨_, rfl, rfl, by decide⟩, ⟨_, _, rfl⟩, ⟨_, _, rfl, rfl⟩⟩

/-- An Idle framer with nothing to send, with a reply and a notice, and with a notice alone. -/
theorem witness_FramerSendsFramesWholeAndInOrder_idle : ∀ rs ∈ [[], [(⟨0x80, 7, [], .resetDone⟩ : Reply)]],
    ∀ ns ∈ [[], [Notice.panelMode .remote]], ∃ s : State, s.powered = true ∧ s.link.sending = none ∧ s.link.asm = none ∧
      s.link.replies = rs ∧ s.link.notices = ns :=
  fun rs _ ns _ => ⟨{ State.reset with link := { linkAtReset 0 with replies := rs, notices := ns } }, rfl, rfl, rfl, rfl, rfl⟩

/-- Queues of 31 and 32 notices with none to merge with, and each kind that merges, behind a notice that does not. -/
theorem witness_FramerSendsFramesWholeAndInOrder_merging :
    (∀ n ∈ [31, 32], (List.replicate n (Notice.panelMode .remote)).length = n ∧
      ∀ q ∈ List.replicate n (Notice.panelMode .remote), coalesce q (.paramChanged [0x10]) = false) ∧
      coalesce (.panelMode .remote) (.panelMode .remote) = false ∧
      coalesce (.panelKnob 6 1) (.panelKnob 7 1) = false ∧
      ([Notice.panelKnob 6 1, .panelKnob 7 32767] = [.panelKnob 6 1] ++ .panelKnob 7 32767 :: []) ∧
      coalesce (.panelKnob 7 32767) (.panelKnob 7 1) = true := by
  refine ⟨fun n _ => ⟨List.length_replicate, fun q h => ?_⟩, rfl, rfl, rfl, rfl⟩
  rw [List.eq_of_mem_replicate h]; rfl

/-- An Echo of the longest payload, and a full house but for one place. -/
theorem witness_FrameClockedInIsAccepted :
    lengthAllowed 0x01 (List.replicate 2112 0) = some true ∧ State.reset.powered = true ∧
      (State.reset.link.requests.length < 8 ∧ State.reset.link.openCount < 16 ∧ State.reset.link.handover = none) ∧
      ∃ (l : Link) (q : Request), l.handover = some q ∧ l.asm = none ∧ l.sending = none ∧ l.replies = [] ∧
        l.notices = [] ∧ l.requests.length < 8 ∧ l.openCount < 16 :=
  ⟨by show some (decide ((List.replicate 2112 (0 : Byte)).length ≤ 2112)) = some true; rw [List.length_replicate]; rfl,
    rfl, ⟨by decide, by decide, rfl⟩,
    { linkAtReset 0 with handover := some (req 1 []), requests := List.replicate 7 (req 1 []), openCount := 15 },
    req 1 [], rfl, rfl, rfl, rfl, rfl, by decide, by decide⟩

/-- Three bytes of a frame taken, and a frame but for its last byte. -/
def assembling (bytes : List Byte) (l : Link) : State := { State.reset with link := { l with asm := some ⟨bytes, 5⟩ } }

/-- A length field of 2113; an Echo with a wrong CRC, an unknown kind, a Reset with a payload, and an Echo that finds no
room, with three of the refusal places taken and with all four, from an idle framer and part-way through a frame. -/
theorem witness_FrameClockedInIsAccepted_refused :
    (([1, 7, 0x41] : List Byte).length = 3 ∧ 2112 < (([1, 7, 0x41] : List Byte).getD 2 0).toNat + 256 * (8 : Byte).toNat) ∧
      (∃ (bytes : List Byte) (b : Byte) (w : Nat), w < 65536 ∧ bytes ++ [b] = [1, 7, 0, 0] ++ leBytes 2 w ∧
        w ≠ (crc16 [1, 7, 0, 0]).toNat) ∧
      (∃ (bytes : List Byte) (b : Byte), bytes ++ [b] = [1, 7, 0, 0] ++ leBytes 2 (crc16 [1, 7, 0, 0]).toNat) ∧
      lengthAllowed 0x04 [] = none ∧ lengthAllowed 0x03 [0] = some false ∧ lengthAllowed 0x01 [] = some true ∧
      (∀ n ∈ [3, 4], ((List.replicate n (⟨0x81, 7, [], .linkRefusal⟩ : Reply)).filter fun p =>
        p.origin == .linkRefusal).length = n) ∧
      (∀ l : Link, (assembling [1] l).powered = true ∧ (assembling [1] l).link.asm = some ⟨[1], 5⟩) ∧
      (∃ l : Link, l.sending = none ∧ l.replies = [] ∧ l.notices = [] ∧ 8 ≤ l.requests.length) ∧
      (∃ l : Link, 16 ≤ l.openCount ∧ l.requests.length < 8 ∧ ∃ f, l.sending = some f ∧ f.pos + 1 < f.frame.length) :=
  ⟨by decide, ⟨[1, 7, 0, 0, 0], 0, 0, by decide, rfl, by decide +kernel⟩,
    ⟨[1, 7, 0, 0, ((leBytes 2 (crc16 [1, 7, 0, 0]).toNat).getD 0 0)], (leBytes 2 (crc16 [1, 7, 0, 0]).toNat).getD 1 0, rfl⟩,
    by decide, by decide, by decide, by decide, fun _ => ⟨rfl, rfl⟩,
    ⟨{ linkAtReset 0 with requests := List.replicate 8 (req 1 []) }, rfl, rfl, rfl, by decide⟩,
    ⟨{ linkAtReset 0 with openCount := 16, sending := some ⟨[0xA5, 0x81, 7], 1, .linkRefusal⟩ }, by decide, by decide,
      _, rfl, by decide⟩⟩

/-- A frame that comes in while a reset is pending with no hand-over in progress. -/
theorem witness_FrameClockedInIsAccepted_resetPending : ∃ l : Link, l.resetPending = true ∧ l.handover = none ∧
    l.asm = none ∧ l.sending = none ∧ l.replies = [] ∧ l.notices = [] ∧ l.requests.length < 8 ∧ l.openCount < 16 :=
  ⟨{ linkAtReset 0 with resetPending := true }, rfl, rfl, rfl, rfl, rfl, rfl, by decide, by decide⟩

/-! ### The live setup and the mask -/

/-- CH1.ENABLE, ACQ.SEGMENTS at its top, and DISP.HPOS past every window. -/
def somePairs : List (Nat × Int) := [(0x10, 1), (0x54, 4096), (0x75, 9999901)]

theorem witness_SetParamsAppliesClampedValues :
    InHandover 0x08 (req 0x08 (setParamsBytes somePairs)) (ready (req 0x08 (setParamsBytes somePairs))) ∧
      1 ≤ somePairs.length ∧ somePairs.length ≤ 16 ∧ (somePairs.map (·.1)).Nodup ∧
      (∀ p ∈ somePairs, PairValid p ∧ Int32 p.2) ∧
      (somePairs.map (·.1)) ≠ [] ∧ 0x54 ∉ ([(0x10, (1 : Int))].map (·.1)) :=
  ⟨⟨rfl, rfl, rfl⟩, by decide, by decide, by decide, by decide, by decide, by decide⟩

theorem witness_SetParamsHandsOnEffects : ∃ ps : List (Nat × Int), 1 ≤ ps.length ∧ ps.length ≤ 16 ∧
    (ps.map (·.1)).Nodup ∧ (∀ p ∈ ps, PairValid p ∧ Int32 p.2) ∧
    InHandover 0x08 (req 0x08 (setParamsBytes ps)) (ready (req 0x08 (setParamsBytes ps))) :=
  ⟨[(0x11, 0), (0x12, -200), (0x60, 4)], by decide, by decide, by decide, by decide, rfl, rfl, rfl⟩

/-- An unknown id behind fifteen good pairs; an Enum value out of its set; an id given twice. -/
theorem witness_SetParamsRefusedChangesNothing :
    (knownParam 0x16 = false ∧ Int32 2147483647 ∧ Int32 (-2147483648)) ∧
      (knownParam 0x10 = true ∧ ¬ PairValid (0x10, 2)) ∧
      (0x12 ∈ ([(0x12, (5 : Int))].map (·.1)) ∧ PairValid (0x12, 5)) := by decide

theorem witness_GetParamsReportsLiveValues :
    (∃ ids : List Nat, ids.length = 49 ∧ (∀ id ∈ ids, id < 256 ∧ knownParam id = true)) ∧
      ∃ ids good rest : List Nat, ids = good ++ 0xFF :: rest ∧ knownParam 0xFF = false ∧ ids.length = 2 ∧
        (∀ i ∈ good, knownParam i = true) :=
  ⟨⟨catalogue.map (·.id), by decide, by decide⟩, ⟨[0x82, 0xFF], [0x82], [], rfl, by decide, rfl, by decide⟩⟩

/-- The last zone alone, a run past the end, and a zone that begins below where it ends. -/
theorem witness_WriteMaskWritesItsRun :
    (199 + 1 ≤ 200 ∧ BoundsValid (0, 399) ∧ BoundsValid (0xFFFF, 0xFFFF)) ∧ (200 < 199 + 2) ∧
      (¬ BoundsValid (10, 9) ∧ ¬ BoundsValid (0, 400) ∧ ¬ BoundsValid (0xFFFF, 0)) ∧
      MaskValid none ∧ MaskValid (some (List.replicate 200 (.bounded 0 399))) := by
  refine ⟨by decide, by decide, by decide, (fun _ h => nomatch h), fun z h => ?_⟩
  obtain rfl := Option.some.inj h
  refine ⟨List.length_replicate, fun t b hm => ?_⟩
  obtain ⟨rfl, rfl⟩ := Zone.bounded.inj (List.eq_of_mem_replicate hm)
  decide

/-- A relative step, a flip and a home value waiting, for a plain parameter, ACQ.SEGMENTS and DISP.HPOS. -/
theorem witness_PanelChangeSetMovesOneValue : ∀ id ∈ [0x12, 0x54, 0x75, 0x10], ∃ s : State, ∃ pv, s.powered = true ∧
    s.setup.loadApplied = true ∧ s.setup.values.length = 49 ∧ s.panel.toSetup = [⟨[(id, pv)], .keep⟩] ∧
    knownParam id = true ∧ (∀ v, pv = .absolute v → PairValid (id, v)) := by
  intro id hid
  refine ⟨{ ready (req 1 []) with
    panel := { panelAtReset pinsAtStart.knobLines true with toSetup := [⟨[(id, .relative (-1))], .keep⟩] } },
    .relative (-1), rfl, rfl, rfl, rfl, ?_, ?_⟩
  · simp at hid; rcases hid with rfl | rfl | rfl | rfl <;> decide
  · intro v h; cases h

/-- ACQ.SEGMENTS at 4096 with CH1 turned on by a key fits; with four channels of 1,000,000 points in Peak mode it does not. -/
theorem witness_PanelChangeSetMovesOneValue_capacity :
    (0x10 ∈ capacityIds ∧ 0x54 ∈ capacityIds ∧ 0x12 ∉ capacityIds) ∧ capacityRequirement defaultValues ≤ 260046848 ∧
      (let big := [(0x54, 4096), (0x52, 3), (0x50, 15), (0x53, 1)].foldl (fun v (p : Nat × Int) => setParam v p.1 p.2) defaultValues
       260046848 < capacityRequirement big ∧ 1 ≤ valuesPerSegment big ∧ valuesPerSegment big ≤ 130023424) := by decide

/-- A capture descriptor of 1,000 points of one byte, 20 ticks each, on CH1. -/
def someDesc (t : Nat) : Descriptor :=
  { capNo := 1, channels := [1], tbScale := 7, acqLength := 0, mode := 0, n := 1, input := .adc
    scales := [9, 9, 9, 9], couplings := [0, 0, 0, 0], bwLimits := [0, 0, 0, 0]
    span := 20000, lEff := 1000, d := 20, t := t, b := 1 }

/-- The trigger settings of the defaults. -/
def someTrig : TrigSettings :=
  { source := 0, type := 0, slope := 0, level := 128, hyst := 4, widthCond := 0, width := 1000, holdoff := 0, sweep := 0 }

/-- A current segment in a phase. -/
def someSegment (phase : SegPhase) : CurSegment :=
  { ident := 0, index := 1, buffer := 0, phase := phase, wpos := 7, armedAny := true, remaining := 500, formed := 0
    groups := [] }

/-- Its record. -/
def someRecord : SegRecord :=
  { ident := 0, index := 1, serial := none, buffer := 0, state := .filling, damaged := [], start := none
    trigTime := none, forced := false, mask := .unchecked, displayed := false }

/-- A capture under way whose segment is in a phase. -/
def capturing (phase : SegPhase) (t : Nat) : State :=
  { ready (req 0x18 []) with
    cap := { captureAtPowerOn with
      runTaken := true, runState := .running, desc := some (someDesc t), table := [someRecord]
      cur := some (someSegment phase) }
    trig := { triggerAtReset 5 false with
      arm := (match phase with | .armed => .armed | .preFill => .preFill | _ => .idle), settings := some someTrig
      risePrimed := true, auto := some 5, holdoff := none } }

theorem witness_SettleExpiryLetsHoldingEnd :
    let s := { capturing .holding 0 with setup := { setupAtPowerOn with loadApplied := true, settle := some 5 } }
    let u := { capturing .holding 500 with setup := { setupAtPowerOn with loadApplied := true, settle := some 5 } }
    s.powered = true ∧ s.setup.settle = some 5 ∧ 5#64 ≤ s.trig.timestamp ∧
      (∀ c, s.cap.cur = some c → c.phase = .holding) ∧ pinHolds s (someDesc 0) 0 = false ∧ s.trig.pendingForce = false ∧
      pinHolds u (someDesc 500) 0 = false ∧ (someDesc 500).t ≠ 0 ∧
      pinHolds { u with rd := { u.rd with pin := some (0, 1023) } } (someDesc 500) 0 = true := by
  refine ⟨rfl, rfl, by decide, fun c h => ?_, by decide, rfl, by decide, by decide, by decide⟩
  simp [capturing] at h; subst h; rfl

/-! ### The front panel -/

theorem witness_SetPanelModeResetsAcceleration :
    InHandover 0x10 (req 0x10 [2]) (ready (req 0x10 [2])) ∧ InHandover 0x10 (req 0x10 [3]) (ready (req 0x10 [3])) ∧
      2 < (3#8).toNat := ⟨⟨rfl, rfl, rfl⟩, ⟨rfl, rfl, rfl⟩, by decide⟩

theorem witness_KeyAndLampBindingsAreReplaced :
    (keyActionOf 7 63 = some (.recall 63) ∧ keyActionOf 7 64 = none ∧ keyActionOf 11 0 = none) ∧
      (lampSourceOf 6 4 = some (.channelOn 4) ∧ lampSourceOf 6 5 = none) ∧
      (∃ k, (ready (req 0x11 [])).panel.keys[63]? = some k) ∧ (∃ l, (ready (req 0x14 [])).panel.lamps[31]? = some l) :=
  ⟨by decide, by decide, ⟨_, rfl⟩, ⟨_, rfl⟩⟩

/-- R45, R46: the ends of the two tables, and what lies past them. -/
theorem test_binding_tables :
    keyActionOf 10 7 = some (.knobHome 7) ∧ keyActionOf 10 8 = none ∧ keyActionOf 6 0 = none ∧ keyActionOf 6 4 = some (.channelToggle 4) ∧
      keyActionOf 2 1 = none ∧ lampSourceOf 9 0 = some .storeBusy ∧ lampSourceOf 10 0 = none ∧ lampSourceOf 6 0 = none := by decide

theorem witness_KnobRequestsResetOneKnob :
    (∃ k, (ready (req 0x12 [7, 0])).panel.knobs[7]? = some k) ∧ knownParam 0x75 = true ∧ knownParam 0x78 = false ∧
      (ready (req 0x13 ([7, 4, 15, 16, 100] ++ leBytes 2 500))).panel.knobs.length = 8 ∧ 500 < 65536 :=
  ⟨⟨_, rfl⟩, by decide, by decide, rfl, by decide⟩

theorem witness_SetLampWritesNamedLamps :
    (∃ ps : List (Byte × Byte), 1 ≤ ps.length ∧ ps.length ≤ 32 ∧ (ps.map (·.1)).Nodup ∧
      ∀ p ∈ ps, p.1.toNat ≤ 31 ∧ p.2.toNat ≤ 1) ∧
      ¬ ([(3#8, 0#8), (3, 1)].map (·.1)).Nodup ∧ 31 < (32#8).toNat ∧ 1 < (2#8).toNat :=
  ⟨⟨[(0, 1), (31, 0)], by decide, by decide, by decide, fun p hp => by
    rcases List.mem_cons.1 hp with rfl | hp
    · decide
    · rw [List.mem_singleton.1 hp]; decide⟩, by decide, by decide, by decide⟩

/-- A panel whose key 63 has input `down` against debounced state `was`, its debounce timer due. -/
def keyDue (mode : PanelMode) (a : KeyAction) (down was : Bool) : State :=
  { ready (req 1 []) with panel := { panelAtReset pinsAtStart.knobLines true with
      mode := mode, keys := List.replicate 63 (keyAtReset 0) ++ [⟨down, was, some 0, a⟩] } }

theorem witness_DebounceExpiryPressesOrReleases : ∀ mode ∈ [PanelMode.localMode, .remote, .lockout],
    ∀ a ∈ [KeyAction.report, .recall 63, .knobHome 7, .toLocal, .none], ∀ down was : Bool,
    (keyDue mode a down was).powered = true ∧ (keyDue mode a down was).panel.keys[63]? = some ⟨down, was, some 0, a⟩ ∧
      0#64 ≤ (keyDue mode a down was).trig.timestamp := by
  intro mode _ a _ down was
  exact ⟨rfl, by simp [keyDue], Nat.zero_le _⟩

/-- A knob one transition before a detent either way, and at its start. -/
def knobAt (count : Int) (target : Option Nat) (mode : PanelMode) : State :=
  { ready (req 1 []) with panel := { panelAtReset pinsAtStart.knobLines true with
      mode := mode
      knobs := List.replicate 7 (knobAtReset 0 0) ++
        [{ knobAtReset 7 0 with count := count, target := target, quick := some 0, run := 254, hold := 0 }] } }

theorem witness_KnobLineChangeCountsTransitions :
    (knobAt 0 none .localMode).panel.scanning = true ∧ (∃ k, (knobAt 0 none .localMode).panel.knobs[7]? = some k ∧
      k.lines = 0 ∧ k.count + 1 ≠ perDetent k.resolution ∧ k.count + 1 ≠ -perDetent k.resolution) ∧
      (3#2 = ~~~ 0#2) := ⟨rfl, ⟨_, rfl, rfl, by decide, by decide⟩, by decide⟩

theorem witness_DetentAcceleratesAndMoves :
    (∃ k, (knobAt 3 (some 0x75) .localMode).panel.knobs[7]? = some k ∧ classify k.lines 1 = .forward ∧
      k.count + 1 = perDetent k.resolution ∧ k.target = some 0x75) ∧
      (∃ k, (knobAt (-3) none .remote).panel.knobs[7]? = some k ∧ classify k.lines 2 = .reverse ∧
        k.count + -1 = -perDetent k.resolution ∧ k.target = none) :=
  ⟨⟨_, rfl, by decide, by decide, rfl⟩, ⟨_, rfl, by decide, by decide, rfl⟩⟩

/-! ### Triggers and captures -/

/-- Armed, with the trigger point inside the segment, and with it the last point (T = 999). -/
theorem witness_ForceTriggerActsByArmView :
    InHandover 0x18 (req 0x18 []) (capturing .armed 500) ∧ (capturing .armed 500).trig.arm = .armed ∧
      (capturing .preFill 500).trig.arm = .preFill ∧ (capturing .postFill 500).trig.arm = .idle ∧
      (someDesc 998).t + 1 < (someDesc 998).lEff ∧ (someDesc 999).lEff ≤ (someDesc 999).t + 1 :=
  ⟨⟨rfl, rfl, rfl⟩, rfl, rfl, rfl, by decide, by decide⟩

theorem witness_KeyAndAutoTimerForceTriggers :
    let s := { capturing .armed 500 with panel := { panelAtReset [] true with toTrigger := 1 } }
    s.panel.toTrigger = 0 + 1 ∧ s.trig.auto = some 5 ∧ 5#64 ≤ s.trig.timestamp ∧ s.trig.settings = some someTrig ∧
      s.cap.desc = some (someDesc 500) ∧ (500 + true.toNat < 1000) ∧
      ({ s with trig := { s.trig with holdoff := some 5 } } : State).trig.holdoff = some 5 :=
  ⟨rfl, rfl, by decide, rfl, rfl, by decide, rfl⟩

/-- Timers due one tick after the newest sample, and two. -/
theorem witness_KeyAndAutoTimerForceTriggers_dueTick :
    let now := (capturing .armed 500).trig.timestamp
    (now + 1).toNat ≤ now.toNat + 1 ∧ now.toNat + 1 < (now + 2).toNat := by decide

/-- R58, R62: at the tick before its due tick a timer's expiry can come; before that it changes nothing. -/
theorem test_timers_meet_the_due_tick :
    let s := fun due : Tick => { capturing .armed 500 with trig := { (capturing .armed 500).trig with holdoff := some due } }
    exec .holdoffExpiry (s 6) = .next { s 6 with trig := { (s 6).trig with holdoff := none } } ∧
      exec .holdoffExpiry (s 7) = .next (s 7) := ⟨rfl, rfl⟩

theorem witness_TickAdvancesTimestamp :
    State.reset.powered = true ∧ State.reset.trig.settings = none ∧
      (∀ c, State.reset.cap.cur = some c → c.phase = .holding ∨ c.phase = .draining) :=
  ⟨rfl, rfl, fun c h => by cases h⟩

/-- Codes 124, 125, 127 and 128 of CH1 against level 128 and hysteresis 4. -/
theorem witness_RisingEdgePrimesFiresAndIsAccepted :
    (capturing .armed 500).cap.input = .adc ∧ (capturing .armed 500).trig.settings = some someTrig ∧
      (capturing .armed 500).trig.risePrimed = true ∧ (capturing .armed 500).trig.holdoff = none ∧
      (someSegment .armed).formed + 1 < (someDesc 500).d ∧ State.reset.cap.cur = none ∧
      (((124#8).toNat : Int) ≤ max 0 (someTrig.level - someTrig.hyst)) ∧
      (max 0 (someTrig.level - someTrig.hyst) < ((125#8).toNat : Int)) ∧
      (((127#8).toNat : Int) < someTrig.level) ∧ (someTrig.level ≤ ((128#8).toNat : Int)) :=
  ⟨rfl, rfl, rfl, rfl, by decide, rfl, by decide, by decide, by decide, by decide⟩

/-- A falling edge, Either, an edge of the external input, one under Pattern, and a pulse as wide as its limit, closed by a
falling fire. -/
theorem witness_RisingEdgePrimesFiresAndIsAccepted_sources :
    fallingFire { someTrig with slope := 1 } true false false 128 = true ∧
      risingFire { someTrig with slope := 2 } true false false 128 = true ∧
      risingFire { someTrig with source := 4 } false false true 0 = true ∧
      (∀ ext, (decide (InputSel.pattern = .adc) && ext) = false) ∧ risingFire { someTrig with source := 4 } false false false 0 = false ∧
      triggerFire { someTrig with type := 1, widthCond := 0, width := 10 } (some (5, .positive)) 14 false true = true ∧
      triggerFire { someTrig with type := 1, widthCond := 0, width := 10 } (some (5, .positive)) 15 false true = false ∧
      triggerFire { someTrig with type := 1, widthCond := 1, width := 10 } (some (5, .positive)) 15 false true = false ∧
      (someTrig.type = 0 ∧ 0 ≤ someTrig.slope ∧ someTrig.slope ≤ 2 ∧ 0 ≤ someTrig.source ∧ someTrig.source ≤ 4) ∧
      (risingFire someTrig true false false 128 && fallingFire someTrig false false false 128) = false := by decide

/-- R56: under Pattern the external input gives no fire, though it was high when Pattern was selected. -/
theorem test_ext_gives_no_fire_under_pattern :
    let s := { capturing .armed 500 with
      cap := { (capturing .armed 500).cap with input := .pattern }
      trig := { (capturing .armed 500).trig with extLevel := true, settings := some { someTrig with source := 4, slope := 1 } } }
    ∃ t, exec (.tick 0 0 0 0 false) s = .next t ∧ t.trig.arm = .armed ∧ t.cap.table = s.cap.table := ⟨_, rfl, rfl, rfl⟩

theorem witness_DescriptorDerivesItsLengths : ValuesInRange defaultValues := by decide

/-- A second channel in the set, and the L_eff of 100 points at the fastest time base. -/
theorem witness_DescriptorDerivesItsLengths_layout :
    let vals := setParam (setParam defaultValues 0x40 1) 0x50 0
    ValuesInRange vals ∧ (descriptorOf 1 .adc vals).channels[1]? = some 4 ∧ (descriptorOf 1 .adc vals).lEff = 100 := by decide

/-- R73: the second block of buffer 1 stands one segment and one block of two bursts from address 0. -/
theorem test_block_address :
    blockAddr (descriptorOf 1 .adc (setParam (setParam defaultValues 0x40 1) 0x50 0)) 1 4 = 256 + 128 := by decide

/-- A stopped sequence of two with one segment finished, and one that has nothing left. -/
def stoppedAfter (n : Nat) (state : RunState) : State :=
  { ready (req 0x19 []) with cap := { captureAtPowerOn with
      runTaken := true, runState := state, desc := some { someDesc 500 with n := n }
      table := [{ someRecord with serial := some 1, state := .complete }] } }

theorem witness_RunStartsResumesOrReports :
    finishedCount (stoppedAfter 2 .stopped) < 2 ∧ 1 ≤ finishedCount (stoppedAfter 1 .stopped) ∧
      (stoppedAfter 2 .stopped).cap.settingsDiffer = false ∧ (stoppedAfter 2 .stopped).cap.maskStopMark = false ∧
      (stoppedAfter 2 .finishing).cap.runState ≠ .stopped := by decide

theorem witness_StopDropsTheSegment : (capturing .armed 500).cap.runState ≠ .stopped ∧
    (capturing .armed 500).cap.cur = some (someSegment .armed) ∧ (stoppedAfter 2 .finishing).cap.cur = none :=
  ⟨by decide, rfl, rfl⟩

theorem witness_SingleStartsASequence : (capturing .armed 500).cap.runState = .running ∧
    (stoppedAfter 2 .finishing).cap.runState ≠ .running := ⟨rfl, by decide⟩

theorem witness_SetWatermarkArmsOrReports :
    (4096 < 4097 ∧ 4097 < 65536) ∧ finishedCount (stoppedAfter 2 .stopped) < 4096 ∧
      1 ≤ finishedCount (stoppedAfter 2 .stopped) := by decide

theorem witness_SetInputIsACaptureChange : (stoppedAfter 2 .finishing).cap.input ≠ .pattern ∧
    (capturing .armed 500).cap.input ≠ .pattern ∧ (stoppedAfter 2 .stopped).cap.input = .adc ∧ 1 < (2#8).toNat := by
  decide

/-- A set that changes a capture value while the part is stopped, finishing, running or in a sequence; one that changes a
trigger value alone, in Armed and not; one that changes only a display value; and one that changes nothing. -/
theorem witness_SetHandedOn :
    changedIds defaultValues (setParam defaultValues 0x52 2) = [0x52] ∧ classChanged [0x52] .C = true ∧
      classChanged [0x11] .F = true ∧ (classChanged [0x62] .F || classChanged [0x62] .C) = false ∧
      classChanged [0x62] .T = true ∧ classChanged [0x72] .D = true ∧ classChanged [0x72] .T = false ∧
      changedIds defaultValues defaultValues = [] ∧ (capturing .armed 500).trig.arm = .armed ∧
      (capturing .armed 500).cap.desc = some (someDesc 500) ∧ (capturing .postFill 500).trig.arm ≠ .armed ∧
      (∀ st ∈ [RunState.stopped, .finishing, .sequence], (stoppedAfter 2 st).cap.runState = st) := by decide

theorem witness_KeysAndClearPersistAct :
    (∃ s : State, s.powered = true ∧ s.panel.toRaster = 0 + 1) ∧
      (∃ s : State, s.powered = true ∧ s.panel.toCapture = .runStop :: [] ∧ s.cap.runState = .stopped ∧
        canResume s = false) ∧
      canResume (stoppedAfter 2 .stopped) = true ∧
      (∃ s : State, s.powered = true ∧ s.panel.toCapture = .single :: [.runStop]) :=
  ⟨⟨{ ready (req 1 []) with panel := { panelAtReset [] true with toRaster := 1 } }, rfl, rfl⟩,
    ⟨{ ready (req 1 []) with panel := { panelAtReset [] true with toCapture := [.runStop] } }, rfl, rfl, rfl, rfl⟩,
    by decide,
    ⟨{ ready (req 1 []) with panel := { panelAtReset [] true with toCapture := [.single, .runStop] } }, rfl, rfl⟩⟩

/-! ### The display -/

/-- The last pixel of the screen; a rectangle just off it; one without width. -/
theorem witness_OverlayRequestsJoinTheWorkList :
    let p := leBytes 2 1279 ++ leBytes 2 799 ++ leBytes 2 2 ++ leBytes 2 1 ++ [5]
    InHandover 0x25 (req 0x25 p) (ready (req 0x25 p)) ∧ InHandover 0x24 (req 0x24 p) (ready (req 0x24 p)) ∧
      (∀ j js, (ready (req 0x25 p)).scan.overlayWork = j :: js → j.granted < jobBursts j) ∧
      ({ ready (req 0x25 p) with scan := { scanAtPowerOn with overlayWork := [] } } : State).scan.overlayWork = [] := by
  refine ⟨⟨rfl, rfl, rfl⟩, ⟨rfl, rfl, rfl⟩, fun j js h => ?_, rfl⟩
  cases h; decide

/-- Overlay work with the head's next write first in the Scan-out queue. -/
def writingOverlay (j : OverlayJob) (behind : List OverlayJob) : State :=
  { ready (req 1 []) with
    mem := { schedAtPowerOn with scanQ := [jobWrite j j.granted] }
    scan := { scanAtPowerOn with overlayWork := j :: behind } }

/-- A request for the screen's last two columns, and one wholly off the screen, as they wait in the list. -/
def cornerJob : OverlayJob := ⟨some (7, 4), 1278, 799, 2, 1, .fill 5, 0, 0⟩
def offJob : OverlayJob := ⟨some (8, 2), 1280, 0, 0, 1, .pixels 1 [5], 0, 0⟩

/-- The last write of the power-on clear with two requests behind it, the last write of a request that is the only one, and a
write that is not the last. -/
theorem witness_OverlayRequestsJoinTheWorkList_written :
    (let clear : OverlayJob := ⟨none, 0, 0, 1280, 800, .fill 0, 16000, 15999⟩
     let s := writingOverlay clear [offJob, cornerJob]
     chooseClass s = some .scanOut ∧ clear.granted + 1 = jobBursts clear ∧ jobBursts offJob ≤ offJob.granted ∧
      cornerJob.granted < jobBursts cornerJob ∧ (∀ q, s.mem.scanQ.head? = some q → q.addr + 64 ≤ 268435456) ∧
      (∃ q lanes, s.mem.scanQ.head? = some q ∧ q.write = some lanes) ∧ s.scan.fetch = none) ∧
      (chooseClass (writingOverlay cornerJob []) = some .scanOut ∧ cornerJob.granted + 1 = jobBursts cornerJob) ∧
      (let j : OverlayJob := { cornerJob with x := 0, w := 65, placed := 1 }
       chooseClass (writingOverlay j []) = some .scanOut ∧ j.granted + 1 < jobBursts j) := by
  refine ⟨⟨by decide +kernel, by decide, by decide, by decide, by decide +kernel, ⟨_, _, rfl, rfl⟩, rfl⟩, ⟨by decide +kernel, by decide⟩,
    by decide +kernel, by decide⟩

/-- R156, R157: pixels at columns 1278 and 1279 of row 799 are lanes 62 and 63 of the last unit of the plane, which the first
value of a row of three and the second one fill. -/
theorem test_overlay_burst_masks_and_clips :
    jobWrite { cornerJob with source := .pixels 3 [7, 8, 9] } 0 =
      ⟨263246848 + 1023936, some (List.replicate 62 none ++ [some 7, some 8])⟩ := by decide +kernel

theorem witness_PaletteAndWaveAreaAreSet :
    (255 + [((1 : Byte), (2 : Byte), (3 : Byte))].length ≤ 256) ∧ (256 < 255 + 2) ∧
      (ready (req 0x26 [])).scan.palette.length = 256 ∧ InHandover 0x27 (req 0x27 [25, 1, 144, 1])
        (ready (req 0x27 [25, 1, 144, 1])) := ⟨by decide, by decide, palette_length, rfl, rfl, rfl⟩

/-- A pass of one drawn segment, the last of a finishing sequence, Ready at a frame start. -/
def readyPass : State :=
  { stoppedAfter 1 .finishing with
    ras := { rasterAtReset with
      state := .ready, stage := .none
      pass := some { latched := latchDisplay State.reset, desc := some (someDesc 500), todo := []
                     drawn := [⟨1, 1, 0, 0, true⟩], extents := [], drawnChannels := [1], overChannels := [] } } }

theorem witness_FrameStartExchangesAndDisplays :
    readyPass.scan.line = 0 ∧ readyPass.ras.state = .ready ∧ finalSerial readyPass = some 1 ∧
      (∃ p, readyPass.ras.pass = some p ∧ ∃ i ∈ p.drawn, i.serial = 1) ∧ State.reset.ras.state = .clearing ∧
      (∃ s : State, s.powered = true ∧ s.scan.line = 0 ∧ s.ras.state = .idle ∧ s.ras.redraw = false ∧
        s.ras.pendingClear = false ∧ s.ras.drawQueue = [] ∧ getParam s.setup.values 0x70 ≠ 1) ∧
      ∃ s : State, s.powered = true ∧ s.scan.line = 0 ∧ s.ras.state = .idle ∧
        (∃ n ∈ s.ras.drawQueue, ∃ rec ∈ s.cap.table, rec.serial = some n ∧ rec.state ≠ .filling) :=
  ⟨rfl, rfl, by decide, ⟨_, rfl, ⟨1, 1, 0, 0, true⟩, by simp, rfl⟩, rfl,
    ⟨{ State.reset with ras := { rasterAtReset with state := .idle } }, rfl, rfl, rfl, rfl, rfl, rfl, by decide⟩,
    ⟨{ stoppedAfter 1 .finishing with ras := { rasterAtReset with state := .idle, drawQueue := [1] } },
      rfl, rfl, rfl, 1, by simp, { someRecord with serial := some 1, state := .complete }, List.mem_singleton.2 rfl, rfl,
      by decide⟩⟩

/-- A Ready pass whose frame start finds a redraw, two queued segments under Off persistence, and decay due. -/
theorem witness_FrameStartExchangesAndDisplays_work :
    let s : State := { readyPass with ras := { readyPass.ras with redraw := true, drawQueue := [1, 2] } }
    let vals := setParam (setParam defaultValues 0x70 1) 0x71 1
    s.ras.state = .ready ∧ (s.ras.drawQueue.filter fun n => s.cap.table.any fun x => x.serial == some n && x.state != .filling) = [1] ∧
      getParam s.setup.values 0x70 = 0 ∧ ([1] : List Word32).Nodup ∧
      (∀ x ∈ s.cap.table, x.state ≠ .filling → x.index ≤ 1) ∧ (∃ x ∈ s.cap.table, x.state ≠ .filling ∧ x.index = 1) ∧
      (getParam vals 0x70 == 1 && (State.reset.scan.frame + 1).toNat % (getParam vals 0x71).toNat == 0) = true := by decide

/-- A fetch at the line start of line 824, finished and not. -/
def atLine (line : Nat) (reads : List Nat) : State :=
  { State.reset with scan := { scanAtPowerOn with
      line := line
      fetch := some ⟨line - 25, [1, 2], 0, (140, 200), reads, 0, [(263246848, List.replicate 64 3)]⟩ } }

theorem witness_ActiveLineIsComposedOrLate :
    (∃ f, (atLine 824 []).scan.fetch = some f ∧ fetchFinished f = true) ∧
      (∃ f, (atLine 25 [263246848]).scan.fetch = some f ∧ fetchFinished f = false) ∧
      (atLine 25 []).scan.palette.length = 256 ∧ (∃ s : State, s.scan.line = 24 ∧ s.scan.fetch = none) :=
  ⟨⟨_, rfl, by decide⟩, ⟨_, rfl, by decide⟩, palette_length, ⟨{ State.reset with scan := { scanAtPowerOn with line := 24 } }, rfl, rfl⟩⟩

/-- The blanking lines, their first and last, and an active line before any fetch. -/
theorem witness_ActiveLineIsComposedOrLate_blanking : ∀ line ∈ [1, 24, 25, 824],
    let s : State := { State.reset with scan := { scanAtPowerOn with line := line } }
    s.powered = true ∧ 1 ≤ s.scan.line ∧ s.scan.line ≤ 824 ∧ s.scan.fetch = none := by
  intro line h
  simp at h
  rcases h with rfl | rfl | rfl | rfl <;> exact ⟨rfl, by decide, by decide, rfl⟩

/-- R160: after power-on, before any line has been composed, the line buffer is all background. -/
theorem test_line_buffer_at_power_on :
    (bufferLine scanAtPowerOn).length = 1280 ∧ (bufferLine scanAtPowerOn).head? = some 0 ∧ scanAtPowerOn.palette.getD 1 7 = 0 := by
  decide +kernel

/-- A plane is cleared when its channel is off or the persistence is Off, decayed when decay is due, and copied else; the first
and last builds; a window of the least width; columns of the least and the greatest number. -/
theorem witness_RowsDecayAndGrades_pass :
    let off := latchDisplay State.reset
    let decay : Latched := { off with persist := 1, decayDue := true }
    off.enable[0]? = some true ∧ off.enable[3]? = some false ∧ planeBuild off 1 = .cleared ∧ planeBuild decay 1 = .decayed ∧
      planeBuild decay 4 = .cleared ∧ planeBuild { decay with decayDue := false } 1 = .copied ∧
      (∀ n ∈ [0, 24999], n < 25000 ∧ ({ rasterAtReset with stage := .build n } : Raster).ready = []) ∧
      (100 ≤ 1000 ∧ 15 ≤ 15 ∧ (10 = [1, 2, 5].getD (3 % 3) 1 * 10 ^ (3 / 3)) ∧ 100 * 10 ≤ 1000) ∧
      (1 + 100 ≤ (List.replicate 101 noRow).length ∧ 0 + 1000 ≤ (List.replicate 1000 noRow).length ∧ noRow.1.row ≤ 399 ∧
        noRow.2.row ≤ 399) ∧
      (99 * 1000 / 100 ≤ 999 ∧ 999 < (99 + 1) * 1000 / 100) ∧ (someDesc 500).b = 1 := by decide +kernel

/-- Serial 1's extents handed over, with mask testing on and a section, for a pass and for a failure. -/
def handedOver (top : Nat) (action : Int) : State :=
  { stoppedAfter 1 .finishing with
    setup := { setupAtPowerOn with
      loadApplied := true, mask := some (List.replicate 199 .unbounded ++ [.bounded top 399])
      values := setParam (setParam defaultValues 0x80 1) 0x82 action }
    ras := { rasterAtReset with
      toMask := some (1, [(1, List.replicate 1000 ⟨5, 300, false, false⟩)]) } }

theorem witness_MaskTestRecordsTheResult :
    getParam (handedOver 5 0).setup.values 0x80 ≠ 0 ∧ getParam (handedOver 6 1).setup.values 0x82 = 1 ∧
      (∃ rec ∈ (handedOver 5 0).cap.table, rec.serial = some 1 ∧ rec.state ≠ .filling) ∧
      zoneFailsTest (List.replicate 1000 ⟨5, 300, false, false⟩) (.bounded 5 399) 199 = false ∧
      zoneFailsTest (List.replicate 1000 ⟨5, 300, false, false⟩) (.bounded 6 399) 199 = true ∧
      (∃ s : State, s.powered = true ∧ s.ras.toMask = some (1, []) ∧ s.setup.mask = none) :=
  ⟨by decide, by decide, ⟨{ someRecord with serial := some 1, state := .complete }, List.mem_singleton.2 rfl,
    rfl, by decide⟩, by decide +kernel, by decide +kernel,
    ⟨{ State.reset with ras := { rasterAtReset with toMask := some (1, []) } }, rfl, rfl, rfl⟩⟩

/-- A test under Stop with a segment in flight and one in the draw queue; extents handed over by a pass with nothing left, and
with a segment left. -/
theorem witness_MaskTestRecordsTheResult_stop :
    let s : State := { handedOver 6 1 with
      cap := { (capturing .armed 500).cap with table := someRecord :: (handedOver 6 1).cap.table }
      ras := { (handedOver 6 1).ras with drawQueue := [2] } }
    s.cap.runState ≠ .stopped ∧ s.cap.cur = some (someSegment .armed) ∧ (1 : Word32) ∉ s.ras.drawQueue ∧ (2 : Word32) ∈ s.ras.drawQueue ∧
      (handedOver 6 1).cap.runState = .finishing ∧
      (∀ todo ∈ [[], [(⟨1, 1, 0, 0, true⟩ : DrawItem)]], ∃ (u : State) (p : Pass), u.powered = true ∧ u.ras.toMask ≠ none ∧
        u.ras.stage = .handed ∧ u.ras.pass = some p ∧ p.todo = todo ∧ p.desc = some (someDesc 500) ∧
        getParam u.setup.values 0x80 = 0 ∧
        (someDesc 500).channels.filter (fun n => p.latched.enable.getD (n - 1) false) = 1 :: []) := by
  have hMask : getParam (ready (req 1 [])).setup.values 0x80 = 0 := by decide
  have hDrawn : (someDesc 500).channels.filter (fun n => (latchDisplay State.reset).enable.getD (n - 1) false) = 1 :: [] := by decide
  refine ⟨by decide, rfl, by decide, by decide, rfl, fun todo _ => ?_⟩
  let p : Pass := ⟨latchDisplay State.reset, some (someDesc 500), todo, [⟨1, 1, 0, 0, true⟩], [], [1], []⟩
  exact ⟨{ ready (req 1 []) with ras := { rasterAtReset with stage := .handed, toMask := some (1, []), pass := some p } }, p,
    rfl, by simp, rfl, rfl, rfl, rfl, hMask, hDrawn⟩

/-! ### The memory and the readout unit -/

/-- One draining capture burst at the last address of the DRAM. -/
def draining (damaged : List Nat) : State :=
  { capturing .draining 500 with
    cap := { (capturing .draining 500).cap with
      table := [{ someRecord with damaged := damaged }]
      gather := [⟨0, 1, 268435392, List.replicate 64 (some 1)⟩] } }

/-- One readout burst, the last of its read. -/
def lastRead : State :=
  { State.reset with
    mem := { schedAtPowerOn with readQ := [⟨1088, none⟩] }
    rd := ⟨some ⟨⟨7, 1, 1, 200, 150, false⟩, 1, false, [], [⟨1088, 0, 16⟩], []⟩, some (0, 2047), []⟩ }

theorem witness_MemorySlotRefreshesGrantsOrIdles :
    (draining []).mem.refreshing = none ∧ (draining []).mem.owed = 0 ∧ chooseClass (draining []) = some .capture ∧
      chooseClass State.reset = none ∧ chooseClass lastRead = some .readout ∧ 268435392 + 64 ≤ 268435456 ∧
      (∃ s : State, s.mem.refreshing = some 5) ∧
      (∃ s : State, s.mem.refreshing = none ∧ 1 ≤ s.mem.owed ∧ s.cap.gather.length < 48) :=
  ⟨rfl, rfl, by decide, by decide, by decide, by decide,
    ⟨{ State.reset with mem := { schedAtPowerOn with refreshing := some 5 } }, rfl⟩,
    ⟨{ State.reset with mem := { schedAtPowerOn with owed := 1 } }, rfl, by decide, by decide⟩⟩

/-- A raster read and a scan-out read that are granted, with their units waiting for them, and a head whose bank has another
row open with three and with four rows opened in the window. -/
theorem witness_MemorySlotRefreshesGrantsOrIdles_reads :
    let scan : State := { State.reset with
      mem := { schedAtPowerOn with scanQ := [⟨263246848, none⟩] }
      scan := (atLine 25 []).scan }
    let raster : State := { State.reset with
      mem := { schedAtPowerOn with rasterQ := [⟨1088, none⟩, ⟨1152, none⟩] }
      ras := { rasterAtReset with stage := .points 1 [] [], wanted := [⟨1088, 0, 16⟩, ⟨1152, 0, 64⟩], outstanding := 2 } }
    chooseClass scan = some .scanOut ∧ (∃ f, scan.scan.fetch = some f) ∧ chooseClass raster = some .raster ∧
      raster.ras.stage = .points 1 [] [] ∧ 2 ≤ raster.ras.outstanding ∧
      classEligible { raster with mem := { raster.mem with
        banks := .openRow 5 :: List.replicate 7 .closed, window := [true, true, true] ++ List.replicate 20 false } } .raster = true ∧
      classEligible { raster with mem := { raster.mem with
        banks := .openRow 5 :: List.replicate 7 .closed, window := [true, true, true, true] ++ List.replicate 19 false } } .raster =
          false := by
  refine ⟨by decide +kernel, ⟨_, rfl⟩, by decide +kernel, rfl, by decide, by decide +kernel, by decide +kernel⟩

theorem witness_LastBurstsCompleteTheirWork :
    chooseClass (draining [1]) = some .capture ∧ ((draining [1]).cap.table.map (·.ident)).Nodup ∧
      (draining []).cap.cur = some (someSegment .draining) ∧
      (∃ op w, lastRead.rd.inFlight = some op ∧ op.placed = [w] ∧ op.todo = [] ∧ lastRead.rd.wait = []) :=
  ⟨by decide, by decide, rfl, ⟨_, _, rfl, rfl, rfl, rfl⟩⟩

/-- A point in the middle of a unit, one that fills it, and the last of the ring; a tick that completes a PreFill point; a last
burst in Running, in a sequence of one, of three with two finished, and with a draw queue of 63 and of 64. -/
theorem witness_LastBurstsCompleteTheirWork_capture :
    ((7 * 1 + 1) % 64 ≠ 0 ∧ 7 + 1 ≠ (someDesc 500).lEff) ∧ ((31 * 2 + 2) % 64 = 0) ∧ (999 + 1 = (someDesc 500).lEff) ∧
      captureAtPowerOn.assembly.length = 4 ∧ ((captureAtPowerOn.assembly.getD 3 none).map (·.lanes)) = none ∧
      (let s := capturing .preFill 500
       ({ s with trig := { s.trig with settings := none } } : State).trig.settings = none ∧ s.cap.cur = some (someSegment .preFill) ∧
        (someDesc 500).d ≤ 19 + 1 ∧ (7 + 1) % (someDesc 500).lEff ≠ (someDesc 500).t) ∧
      (draining []).cap.runState = .running ∧ (someDesc 500).n = 1 ∧ someRecord.state = .filling ∧
      finishedCount (stoppedAfter 3 .sequence) + 1 < 3 ∧ 2 ≤ finishedCount (stoppedAfter 2 .sequence) + 1 ∧
      (∀ n ∈ [63, 64], (List.replicate n (1 : Word32)).length = n) := by
  refine ⟨by decide, by decide, by decide, rfl, rfl, ⟨rfl, rfl, by decide, by decide⟩, rfl, rfl, rfl, by decide, by decide,
    fun n _ => List.length_replicate⟩

/-- The rasterizer at a stage, with its last write first in the Raster queue and all but one granted. -/
def lastWrite (stage : RasterStage) (pass : Option Pass) : State :=
  { ready (req 1 []) with
    mem := { schedAtPowerOn with rasterQ := [⟨263246784, some zeroLanes⟩] }
    ras := { rasterAtReset with state := .drawing, stage := stage, outstanding := 1, pass := pass } }

/-- The last write of the clearing, and one before it; the last one of a pass without segments; the last one of a segment drawn
anew, and of a taken one. -/
theorem witness_LastBurstsCompleteTheirWork_raster :
    (∀ stage ∈ [RasterStage.clear 49999, .clear 50000, .build 25000, .grade 4 [] []], ∀ pass,
      chooseClass (lastWrite stage pass) = some .raster ∧ (lastWrite stage pass).ras.stage = stage ∧
        (lastWrite stage pass).ras.pass = pass ∧ (lastWrite stage pass).ras.ready = [] ∧ (lastWrite stage pass).ras.reads = []) ∧
      263246784 + 64 ≤ 268435456 ∧
      ∀ todo ∈ [[], [(⟨1, 1, 0, 0, false⟩ : DrawItem)], [⟨1, 1, 0, 0, true⟩]], ∃ p : Pass, p.todo = todo :=
  ⟨fun _ _ _ => ⟨rfl, rfl, rfl, rfl, rfl⟩, by decide,
    fun todo _ => ⟨⟨latchDisplay State.reset, some (someDesc 500), todo, [], [], [4], [4]⟩, rfl⟩⟩

theorem witness_SegmentsAreReportedAndReadsStart :
    let p := leBytes 4 1 ++ leBytes 1 0 ++ leBytes 4 999 ++ leBytes 2 1 ++ leBytes 1 0
    InHandover 0x35 (req 0x35 p) (ready (req 0x35 p)) ∧
      InHandover 0x34 (req 0x34 (leBytes 2 4096 ++ [64])) (ready (req 0x34 (leBytes 2 4096 ++ [64]))) ∧
      (ready (req 0x34 [])).cap.desc = none ∧ (stoppedAfter 1 .stopped).cap.desc = some { someDesc 500 with n := 1 } ∧
      ((stoppedAfter 1 .stopped).cap.table.find? fun x => x.serial == some 1 && x.state != .filling).isSome = true ∧
      999 + 1 ≤ (someDesc 500).lEff ∧ (someDesc 500).lEff < 1000 + 1 ∧ 0 + 1 ∈ (someDesc 500).channels ∧
      1 + 1 ∉ (someDesc 500).channels ∧ lastRead.rd.inFlight ≠ none :=
  ⟨⟨rfl, rfl, rfl⟩, ⟨rfl, rfl, rfl⟩, rfl, rfl, by decide, by decide, by decide, by decide, by decide, by decide⟩

theorem witness_RunReadsGiveThePointsInRecordOrder :
    0 < 1000 ∧ 1 ≤ 2 ∧ 2 ≤ 2 ∧ 999 < 1000 ∧ 0 + 1000 ≤ 1000 := by decide

theorem witness_TimerExpiriesDoTheirPart :
    (0#64 ≤ State.reset.trig.timestamp) ∧ (∃ s : State, s.link.asm = some ⟨[1, 2], 0⟩) ∧
      (∃ k, (knobAt 0 none .localMode).panel.knobs[7]? = some k ∧ k.quick = some 0) ∧
      (∃ s : State, s.panel.triggered = some 0 ∧ s.mem.intervalDue = 0 ∧ s.mem.refreshing = some 0) :=
  ⟨by decide, ⟨{ State.reset with link := { linkAtReset 0 with asm := some ⟨[1, 2], 0⟩ } }, rfl⟩, ⟨_, rfl, rfl⟩,
    ⟨{ State.reset with
        panel := { panelAtReset [] true with triggered := some 0 }
        mem := { schedAtPowerOn with intervalDue := 0, refreshing := some 0 } }, rfl, rfl, rfl⟩⟩

/-! ### The setup store -/

/-- An idle store with sector 0 Active and sector 1 Spare, slot 63 holding a record and slot 4 none, with a request in
hand-over. -/
def storeReady (r : Request) (used : Nat) : State :=
  { ready r with store := { storeAtPowerOn factoryRecords with
      rebuilding := false, sectors := ⟨.active, used, 0⟩ :: ⟨.spare, 0, 0⟩ :: List.replicate 30 ⟨.erased, 0, 0⟩
      slots := slotsBeforeRebuild factoryRecords |>.set 63 (.present (.factory 0) 1 294 false false none) } }

theorem witness_StoreRequestsBeginProgramming :
    (CanWrite (storeReady (req 0x2A [63]) 4080) ∧ CanWrite (storeReady (req 0x2F [63]) 4079)) ∧
      InHandover 0x28 (req 0x28 [63, 1]) (storeReady (req 0x28 [63, 1]) 0) ∧
      slotProtected (storeReady (req 0x28 [63, 1]) 0) 63 = false ∧
      slotEntry (storeReady (req 0x2B [63, 1]) 0) 63 = .present (.factory 0) 1 294 false false none :=
  ⟨⟨by decide, by decide⟩, ⟨rfl, rfl, rfl⟩, rfl, rfl⟩

/-- A record that just fits in the Active sector and one that does not, with an Erased sector and with none; the victim is then
the lower-numbered of two Full sectors with the fewest live bytes. -/
theorem witness_StoreRequestsBeginProgramming_placing :
    let rows := (storeReady (req 0x2A [63]) 4080).store.sectors
    let full : List Sector := [⟨.active, 4081, 0⟩, ⟨.spare, 0, 0⟩, ⟨.full, 4000, 294⟩, ⟨.full, 4000, 294⟩, ⟨.full, 4000, 300⟩]
    IsFirst .active rows (some 0) ∧ IsFirst .erased rows (some 2) ∧ IsFirst .spare rows (some 1) ∧ 4080 + 16 ≤ 4096 ∧ 4096 < 4081 + 16 ∧
      IsFirst .erased full none ∧ IsVictim full 2 ∧ IsFirst .active (full.set 0 ⟨.full, 4081, 600⟩) none := by
  refine ⟨⟨by decide, by decide, by decide⟩, ⟨by decide, by decide, by decide⟩, ⟨by decide, by decide, by decide⟩, by decide, by decide,
    ?_, ⟨by decide, by decide, by decide⟩, ?_⟩ <;> unfold IsFirst <;> decide

/-- An operation that waits: three host places taken behind one in flight, and before the load. -/
theorem witness_StoreRequestsBeginProgramming_waiting :
    (withWork (.programming 31 0)).store.inFlight ≠ none ∧ State.reset.setup.loadApplied = false ∧
      ((List.replicate 3 (⟨7, .recall 4⟩ : QueuedOp)).filter fun q => !isPanelOp q).length < 4 ∧ (63 ≤ 63 ∧ 63 + 1 ≤ 64) ∧
      (∃ seq, slotEntry (storeReady (req 0x2B [63, 0]) 0) 63 = .present (.factory 0) seq 294 false false none) :=
  ⟨by decide, rfl, by decide, by decide, 1, rfl⟩

theorem witness_StoreRequestsAreRefused :
    InHandover 0x28 (req 0x28 [64, 2]) (storeReady (req 0x28 [64, 2]) 0) ∧ 63 < 64 ∧ 3 < 4 ∧
      slotEntry (storeReady (req 0x2A [4]) 0) 4 = .empty none ∧
      (∃ s : State, (s.store.queue.filter fun q => !isPanelOp q).length = 4) ∧
      (∃ s : State, s.setup.loadApplied = true ∧ findSector (inState .spare) s.store.sectors = none) :=
  ⟨⟨rfl, rfl, rfl⟩, by decide, by decide, rfl,
    ⟨{ State.reset with store := { storeAtPowerOn [] with queue := List.replicate 4 ⟨7, .recall 4⟩ } }, by decide⟩,
    ⟨ready (req 1 []), rfl, by decide⟩⟩

/-- An ImportSlot of a power-on record and of a Setup record of slots 3, 4, 63 and 64; a record that is there and no longer
intact; a counter that is used up. -/
theorem witness_StoreRequestsAreRefused_import :
    (isIntact (controlRecord 0 1) = true ∧ recKind (controlRecord 0 1) ≠ 1) ∧ isIntact ([] : List Byte) = false ∧
      (∀ slot ∈ [3, 4, 63, 64], isIntact (setupRecord slot 1 false defaultValues none none) = true) ∧
      recKind (setupRecord 63 1 false defaultValues none none) = 1 ∧ recSlot (setupRecord 63 1 false defaultValues none none) = 63 ∧
      readRecord State.reset (.nv 0 0) = none ∧ 4294967295 < 4294967296 := by
  refine ⟨by decide +kernel, by decide, fun slot _ => ?_, rfl, rfl, by decide +kernel, by decide⟩
  have h := intactRecord_setup (slot := slot) (seq := 1) (prot := false) (mask := none) (label := none) []
    (vals := defaultValues) (by decide) (fun z h => nomatch h) (fun l h => nomatch h)
  rw [List.append_nil] at h
  simp [isIntact, h]

theorem witness_NvCompletionsMakeRecordsLive :
    (withWork (.programming 31 4079)).powered = true ∧ (withWork (.programming 31 4079)).store.queue = [] ∧
      Memory.wf 0xFF (withWork (.programming 31 4079)).nv ∧
      (withWork (.erasing 31 (some 30))).store.sectors.length = 32 ∧ (controlRecord 0 1).length ≤ 1094 ∧
      findSector (inState .active) (withWork (.erasing 31 (some 30))).store.sectors = none ∧
      (sectorRow (withWork (.erasing 31 (some 30))).store.sectors 30).used + (controlRecord 0 1).length ≤ 4096 :=
  ⟨rfl, rfl, by decide, rfl, by simp [controlRecord, withCrc, recordHeader, leBytes], by decide,
    by simp [controlRecord, withCrc, recordHeader, leBytes]; decide⟩

/-- A copy of slot 4's record from sector 2 to the Spare; a queued recall of a factory slot behind a SetPowerOn. -/
theorem witness_NvCompletionsMakeRecordsLive_copies :
    (withWork (.copying 2 0 ⟨16, 294⟩ 30 [])).store.sectors.length = 32 ∧ 2 < 32 ∧ 0 < 32 ∧ (2 ≠ 0) ∧
      (∃ f, (withWork (.programming 31 4079)).store.inFlight = some f ∧ f.stage = .programming 31 4079 ∧ f.op.op = .setPowerOn 0) ∧
      (∃ rec, readRecord State.reset (.factory 0) = some rec) ∧
      (∃ seq len prot hm lb, slotEntry State.reset 0 = .present (.factory 0) seq len prot hm lb) ∧
      ({ storeAtPowerOn [] with queue := [⟨7, .recall 0⟩] } : Store).queue = ⟨7, .recall 0⟩ :: [] :=
  ⟨rfl, by decide, by decide, by decide, ⟨_, rfl, rfl, rfl⟩,
    ⟨_, readRecord_factory rfl rfl⟩, ⟨_, _, _, _, _, rfl⟩, rfl⟩

theorem witness_RebuildLoadsThePowerOnSetup :
    State.reset.setup = setupAtPowerOn ∧ State.reset.cap = captureAtPowerOn ∧
      State.reset.store = storeAtPowerOn factoryRecords ∧ State.reset.nv = [] ∧ Memory.wf 0xFF State.reset.nv :=
  ⟨rfl, rfl, rfl, rfl, by decide⟩

/-- The rebuild has had to erase the last sector. -/
theorem witness_RebuildLoadsThePowerOnSetup_erase :
    ∃ s : State, s.powered = true ∧ s.setup.loadApplied = false ∧ s.store.rebuilding = true ∧ s.store.rebuildErase = some 31 ∧
      s.store.sectors.length = 32 ∧ Memory.wf 0xFF s.nv ∧ s.nv ≠ [] :=
  ⟨{ State.reset with
      nv := programBytes [] 31 0 (controlRecord 63 1), store := { storeAtPowerOn factoryRecords with rebuildErase := some 31 } },
    rfl, rfl, rfl, rfl, rfl, by decide +kernel, by decide +kernel⟩

/-- Requests that wait for the load, and for the power-on Run. -/
theorem witness_RebuildLoadsThePowerOnSetup_waiting :
    (State.reset.setup.loadApplied = false ∧ State.reset.cap.runTaken = false) ∧
      (∃ l : Link, l.handover = some (req 0x20 [199, 1]) ∧ byteAt (req 0x20 [199, 1]).payload 0 ≤ 199 ∧
        byteAt (req 0x20 [199, 1]).payload 0 + byteAt (req 0x20 [199, 1]).payload 1 ≤ 200) ∧
      (∀ r ∈ [req 0x09 [], req 0x09 []], r.kind = 0x09 ∧ r.payload = []) ∧ ∀ r ∈ [req 0x19 []], r.kind = 0x19 :=
  ⟨⟨rfl, rfl⟩, ⟨{ linkAtReset 0 with handover := some (req 0x20 [199, 1]) }, rfl, by decide, by decide⟩, by decide, by decide⟩

/-- An NV area whose sectors 4 and 31 each begin with one and the same power-on record, and is erased elsewhere. -/
def twoCopies : Memory := programBytes (programBytes [] 4 0 (controlRecord 63 1)) 31 0 (controlRecord 63 1)

theorem twoCopies_recordAt : ∀ k ∈ [4, 31], RecordAt twoCopies k 0 (controlRecord 63 1) ∧ ErasedPair twoCopies k 17 := by
  have h : ∀ k ∈ [4, 31], memSlice 0xFF twoCopies (k * 4096 + 0) 17 = controlRecord 63 1 ∧ ¬ ErasedPair twoCopies k 0 ∧
      ErasedPair twoCopies k 17 := by unfold ErasedPair; decide +kernel
  intro k hk
  obtain ⟨h1, h2, h3⟩ := h k hk
  exact ⟨recordAt_of_slice (by simpa using h1) (by simp) intactRecord_control h2, h3⟩

/-- R167: its scan notes those two copies and nothing else. -/
theorem twoCopies_noted (f : Found) : Noted twoCopies f ↔ f = ⟨4, 0, controlRecord 63 1⟩ ∨ f = ⟨31, 0, controlRecord 63 1⟩ := by
  have hblank : ∀ k, k < 32 → k ≠ 4 → k ≠ 31 → ErasedPair twoCopies k 0 := by unfold ErasedPair; decide +kernel
  constructor
  · rintro ⟨hk, hr, ha⟩
    obtain ⟨k, o, bs⟩ := f
    by_cases h : k = 4 ∨ k = 31
    · obtain ⟨h1, h2⟩ := twoCopies_recordAt k (by simpa using h)
      rcases reached_one h1 (by simpa using h2) hr with rfl | rfl
      · have hb : bs = controlRecord 63 1 := (Option.some.inj (h1.2.symm.trans ha.2)).symm
        subst hb
        rcases h with rfl | rfl <;> simp
      · exact absurd (by simpa using h2) ha.1
    · have he := hblank k hk (by tauto) (by tauto)
      cases reached_erased he hr
      exact absurd he ha.1
  · rintro (rfl | rfl)
    · exact ⟨by decide, .start, (twoCopies_recordAt 4 (by simp)).1⟩
    · exact ⟨by decide, .start, (twoCopies_recordAt 31 (by simp)).1⟩

/-- Both copies win the power-on choice, no slot has a winner, and neither sector holds what the other lacks; each is a candidate
for Active. -/
theorem witness_RebuildLoadsThePowerOnSetup_copies :
    Wins twoCopies 64 ⟨4, 0, controlRecord 63 1⟩ ∧ Wins twoCopies 64 ⟨31, 0, controlRecord 63 1⟩ ∧ (∀ key, key < 64 → ∀ f, ¬ Wins twoCopies key f) ∧
      (∀ key f g, Wins twoCopies key f → Wins twoCopies key g → f ≠ g →
        f.sector = 4 ∧ g.sector = 31 ∨ f.sector = 31 ∧ g.sector = 4) ∧
      Memory.wf 0xFF twoCopies ∧ State.reset.setup.values.length = 49 ∧ 4 ≤ State.reset.store.slots.length ∧
      (∀ e ∈ State.reset.store.slots.take 4, entryLive e = []) := by
  have key : recordKey (controlRecord 63 1) = some 64 := by decide +kernel
  have win : ∀ f, Noted twoCopies f → Wins twoCopies 64 f := fun f hf => by
    have hb : ∀ g, Noted twoCopies g → g.bytes = controlRecord 63 1 := fun g hg => by
      rcases (twoCopies_noted g).1 hg with rfl | rfl <;> rfl
    exact ⟨hf, hb f hf ▸ key, fun g hg _ => by rw [hb f hf, hb g hg]⟩
  refine ⟨win _ ((twoCopies_noted _).2 (.inl rfl)), win _ ((twoCopies_noted _).2 (.inr rfl)), ?_, ?_, by decide +kernel, rfl, by decide, ?_⟩
  · rintro k hk f ⟨hf, h, -⟩
    have : recordKey f.bytes = some 64 := by rcases (twoCopies_noted f).1 hf with rfl | rfl <;> exact key
    rw [this] at h; cases h; omega
  · rintro k f g ⟨hf, -⟩ ⟨hg, -⟩ hne
    rcases (twoCopies_noted f).1 hf with rfl | rfl <;> rcases (twoCopies_noted g).1 hg with rfl | rfl <;> simp_all
  · intro e he
    simp only [show State.reset.store.slots.take 4 = (List.range 4).map fun k => entryOf (.factory k) (factoryRecords.getD k []) from rfl] at he
    obtain ⟨n, -, rfl⟩ := List.mem_map.1 he
    rfl

theorem witness_RecallsExportsAndLists :
    slotEntry (storeReady (req 0x29 [63]) 0) 63 = .present (.factory 0) 1 294 false false none ∧
      (∃ rec, readRecord (storeReady (req 0x29 [63]) 0) (.factory 0) = some rec) ∧ readRecord State.reset (.nv 0 0) = none ∧
      (storeReady (req 0x2C [32, 32]) 0).setup.loadApplied = true ∧ (storeReady (req 0x2C [32, 32]) 0).store.queue = [] ∧
      InHandover 0x2C (req 0x2C [32, 32]) (storeReady (req 0x2C [32, 32]) 0) ∧ 32 + 32 ≤ 64 :=
  ⟨rfl, ⟨_, readRecord_factory rfl rfl⟩, by decide +kernel, rfl, rfl, ⟨rfl, rfl, rfl⟩, by decide⟩

/-- The set of a recall waits for the setup controller. -/
def handedSet (op : StoreOp) (cs : ChangeSet) : State :=
  { ready (req 1 []) with store := { storeAtPowerOn factoryRecords with
      inFlight := some ⟨⟨7, op⟩, [], false, false, .handed cs⟩ } }

/-- A recall from the host and one from the panel, of the defaults with and without a mask section. -/
theorem witness_RecallsExportsAndLists_handed : ∀ op ∈ [StoreOp.recall 63, .panelRecall 0],
    ∀ mask ∈ [MaskEdit.remove, .replace (List.replicate 200 (0, 399))], ∃ (s : State) (f : InFlight), s.setup.loadApplied = true ∧
      s.store.queue = [] ∧ s.powered = true ∧ s.setup.values.length = 49 ∧ s.store.inFlight = some f ∧ f.op.op = op ∧
      f.stage = .handed (recallSet defaultValues mask) ∧ SetValid defaultValues mask ∧ ValuesInRange defaultValues := by
  intro op _ mask hm
  refine ⟨handedSet op (recallSet defaultValues mask), _, rfl, rfl, rfl, rfl, rfl, rfl, rfl,
    ⟨by decide, by decide, ?_⟩, by decide⟩
  rcases List.mem_pair.1 hm with rfl | rfl
  · exact .inl rfl
  · exact .inr ⟨_, rfl, List.length_replicate, fun z hz => by rw [List.eq_of_mem_replicate hz]; decide⟩

/-- The pairs of the defaults with the one at a place replaced. -/
def pairsWith (pos id : Nat) (v : Int) : List (Nat × PairValue) :=
  let ps := catalogue.map fun p => (p.id, getParam defaultValues p.id)
  (ps.take pos).map (fun p => (p.1, .absolute p.2)) ++ (id, .absolute v) ::
    (ps.drop (pos + 1)).map fun p => (p.1, .absolute p.2)

/-- Sets that are refused: for an id the catalogue lacks, a value an Enum lacks in the first pair, an id repeated in the last
one, and a half-bounded last zone. -/
theorem witness_RecallsExportsAndLists_refused :
    RecallRefused ⟨pairsWith 6 0x16 0, .remove⟩ 4 [1, 6, 0x16] ∧ RecallRefused ⟨pairsWith 0 0x10 2, .remove⟩ 5 [1, 0, 0x10] ∧
      RecallRefused ⟨pairsWith 48 0x10 0, .remove⟩ 5 [1, 48, 0x10] ∧
      RecallRefused ⟨(recallSet defaultValues .keep).pairs, .replace (List.replicate 199 (0, 399) ++ [(0, 0xFFFF)])⟩ 5 [2, 199, 0] ∧
      ∀ op cs, ∃ f, (handedSet op cs).powered = true ∧ (handedSet op cs).setup.loadApplied = true ∧
        (handedSet op cs).store.queue = [] ∧ (handedSet op cs).store.inFlight = some f ∧ f.stage = .handed cs := by
  let good (n : Nat) := (catalogue.map fun p => (p.id, getParam defaultValues p.id)).take n
  refine ⟨⟨good 6, by decide, by decide, .inl ⟨0x16, 0, _, rfl, rfl, .inl ⟨rfl, by decide⟩⟩⟩,
    ⟨good 0, by decide, by decide, .inl ⟨0x10, 2, _, rfl, rfl, .inr ⟨rfl, by decide, .inr (by decide)⟩⟩⟩,
    ⟨good 48, by decide, by decide, .inl ⟨0x10, 0, _, rfl, rfl, .inr ⟨rfl, by decide, .inl (by decide)⟩⟩⟩,
    ⟨good 49, by decide, by decide, .inr ⟨rfl, rfl, List.replicate 199 (0, 399), (0, 0xFFFF), [], rfl, ?_, by decide,
      by rw [List.length_replicate]; decide⟩⟩,
    fun _ _ => ⟨_, rfl, rfl, rfl, rfl, rfl⟩⟩
  intro y hy
  rw [List.eq_of_mem_replicate hy]; decide

/-- A store whose slot 63 has a number of holds. -/
def held (r : Request) (n : Nat) (want : Bool) : State :=
  { storeReady r 0 with store := { (storeReady r 0).store with locks := [⟨4, 1, false⟩, ⟨63, n, want⟩] } }

theorem witness_LocksHoldPanelRecalls :
    InHandover 0x30 (req 0x30 [63]) (held (req 0x30 [63]) 15 true) ∧
      InHandover 0x31 (req 0x31 [63]) (held (req 0x31 [63]) 1 true) ∧
      (held (req 0x31 [63]) 1 true).store.locks = [⟨4, 1, false⟩] ++ ⟨63, 1, true⟩ :: [] ∧
      (∀ l ∈ [(⟨4, 1, false⟩ : Lock)] ++ [], l.slot ≠ 63) ∧
      (∃ s : State, s.store.locks.length = 4 ∧ ∀ l ∈ s.store.locks, l.slot ≠ 63) ∧
      (∃ s : State, s.powered = true ∧ s.setup.loadApplied = true ∧ s.panel.toStore = [63] ∧ s.store.queue = [] ∧
        s.store.inFlight = none ∧ ∃ l ∈ s.store.locks, l.slot = 63) :=
  ⟨⟨rfl, rfl, rfl⟩, ⟨rfl, rfl, rfl⟩, rfl, by decide,
    ⟨{ State.reset with store := { storeAtPowerOn [] with
        locks := [⟨4, 1, false⟩, ⟨5, 1, false⟩, ⟨6, 1, false⟩, ⟨7, 1, false⟩] } }, rfl, by decide⟩,
    ⟨{ held (req 1 []) 1 false with panel := { panelAtReset [] true with toStore := [63] } }, rfl, rfl, rfl, rfl, rfl,
      ⟨63, 1, false⟩, by simp [held], rfl⟩⟩

/-- The last hold of a wanted lock released with the store idle, of an empty slot and of one with a record; a panel recall that
finds another in the panel place, and one that finds another waiting for its lock. -/
theorem witness_LocksHoldPanelRecalls_replaced :
    (let s := held (req 0x31 [63]) 1 true
     s.setup.loadApplied = true ∧ s.store.inFlight = none ∧ s.store.queue = [] ∧
      slotEntry s 63 = .present (.factory 0) 1 294 false false none ∧ slotEntry s 62 = .empty none ∧
      (∃ rec, readRecord s (.factory 0) = some rec)) ∧
      (∃ s : State, s.powered = true ∧ s.panel.toStore = 63 :: [] ∧ s.store.inFlight ≠ none ∧ s.store.waitingRecall = none ∧
        s.store.queue = [⟨7, .recall 4⟩] ++ ⟨0, .panelRecall 5⟩ :: [⟨7, .delete 4⟩] ∧
        ∀ q ∈ [(⟨7, .recall 4⟩ : QueuedOp)] ++ [⟨7, .delete 4⟩], isPanelOp q = false) ∧
      ∃ s : State, s.powered = true ∧ s.panel.toStore = 63 :: [] ∧ s.store.inFlight ≠ none ∧ s.store.waitingRecall = some 63 ∧
        ∀ q ∈ s.store.queue, isPanelOp q = false := by
  let panel : Panel := { panelAtReset [] true with toStore := [63] }
  let busy := (withWork (.programming 31 0)).store
  refine ⟨⟨rfl, rfl, rfl, rfl, rfl, _, readRecord_factory rfl rfl⟩,
    ⟨{ ready (req 1 []) with panel := panel, store := { busy with queue := [⟨7, .recall 4⟩, ⟨0, .panelRecall 5⟩, ⟨7, .delete 4⟩] } },
      rfl, rfl, by simp [busy, withWork], rfl, rfl, by decide⟩,
    { ready (req 1 []) with panel := panel, store := { busy with waitingRecall := some 63 } }, rfl, rfl, by simp [busy, withWork], rfl, ?_⟩
  intro q hq
  cases hq

/-! ### Answers that need only a request in hand-over, and the statements that need only lengths -/

theorem witness_EchoAndGetStatusAnswerAtOnce :
    InHandover 0x01 (req 0x01 []) (ready (req 0x01 [])) ∧ InHandover 0x02 (req 0x02 []) (ready (req 0x02 [])) :=
  ⟨⟨rfl, rfl, rfl⟩, ⟨rfl, rfl, rfl⟩⟩

theorem witness_ResetQueuesDoneAndHoldsHandOver : InHandover 0x03 (req 0x03 []) (ready (req 0x03 [])) := ⟨rfl, rfl, rfl⟩

theorem witness_MaskSectionIsClearedAndRead :
    InHandover 0x23 (req 0x23 []) (ready (req 0x23 [])) ∧ InHandover 0x21 (req 0x21 []) (ready (req 0x21 [])) ∧
      InHandover 0x22 (req 0x22 []) (ready (req 0x22 [])) ∧ (ready (req 0x22 [])).setup.loadApplied = true :=
  ⟨⟨rfl, rfl, rfl⟩, ⟨rfl, rfl, rfl⟩, ⟨rfl, rfl, rfl⟩, rfl⟩

theorem witness_GetPanelReportsThePanel :
    InHandover 0x16 (req 0x16 []) (ready (req 0x16 [])) ∧ (ready (req 0x16 [])).panel.keys.length = 64 ∧
      (ready (req 0x16 [])).panel.knobs.length = 8 ∧ (ready (req 0x16 [])).panel.lamps.length = 32 :=
  ⟨⟨rfl, rfl, rfl⟩, rfl, rfl, rfl⟩

/-- A panel that scans and one that does not. -/
theorem witness_KeyScanRestartsChangedKeys : ∀ b : Bool, ∃ s : State, s.powered = true ∧ s.panel.keys.length = 64 ∧
    s.panel.scanning = b := fun b => ⟨{ State.reset with panel := { panelAtReset [] true with scanning := b } }, rfl, rfl, rfl⟩

/-- Codes at both ends of their range. -/
theorem witness_PointsFollowTheAcquisitionMode : (255 ≤ 255) ∧ ∀ x ∈ [0, 255], x ≤ 255 := by decide

/-- R70: twenty codes that sum to 2,570 stand half-way between 128 and 129, and give 129. -/
theorem witness_PointsFollowTheAcquisitionMode_tie :
    let cs := List.replicate 10 129 ++ List.replicate 9 128
    128 ≤ 255 ∧ (∀ x ∈ cs, x ≤ 255) ∧ 2 * (128 :: cs).sum = 20 * (2 * 128) + 20 ∧
      pointBytes 2 20 (cs.foldl addCode ⟨128, 128, 128, 128⟩) = [129] := by decide +kernel

/-- A code on the top row, one just above it, and cells that are hit and not. -/
theorem witness_RowsDecayAndGrades :
    (0 : Int) = 200 - ((if false then -2 else 2) * (((228 : Nat) : Int) - 128) + 0) ∧
      (-2 : Int) = 200 - ((if false then -2 else 2) * (((229 : Nat) : Int) - 128) + 0) ∧
      cellHit [[(5, 6)]] 6000 = true ∧ cellHit [[(5, 6)]] 7000 = false := by decide

/-! ### What every step keeps -/

/-- A step is taken from the state after reset, with a command in its queue, and answers a next state. -/
theorem witness_steps_from_reset :
    ∃ t, step { State.reset with pending := [.tick 1 2 3 4 true] } = .next t ∧ t.trig.timestamp = 1 := ⟨_, rfl, rfl⟩

/-- The state after reset with a command in its queue. -/
def waiting (c : Instr) : State := { State.reset with pending := [c] }

theorem witness_LiveSetupStaysInItsCatalogue : SetupSound (waiting .powerLoss) ∧ ∃ t, step (waiting .powerLoss) = .next t :=
  ⟨⟨by decide, by decide, fun z h => by cases h⟩, _, rfl⟩

theorem witness_LinkStaysWithinItsBounds :
    LinkBounded (waiting .powerLoss).link ∧ ∃ t, step (waiting .powerLoss) = .next t := ⟨by decide, _, rfl⟩

theorem witness_MemoriesStayCanonical :
    MemoriesCanonical (waiting .powerLoss) ∧ ∃ t, step (waiting .powerLoss) = .next t := ⟨by decide, _, rfl⟩

theorem witness_QueuesCountsAndLocksStayBounded : SchedulerBounded (waiting .powerLoss) ∧
    LocksBounded (waiting .powerLoss).store.locks ∧ ∃ t, step (waiting .powerLoss) = .next t :=
  ⟨by decide, by decide, _, rfl⟩

end Sys2Proof.Tests
end

section
/-! The rules the front panel's proofs share: how its requests and events are run, and what its operations do. -/

namespace Sys2Proof.Machine.FrontPanel

variable {r : Request} {s : State} {serve : Request → State → State} {kind : Byte} {c : Instr}

/-! ## A panel request served (R199, R200) -/

@[simp] theorem taken_panel (s : State) : (taken s).panel = s.panel := rfl

/-- A request that changes the panel and is answered at once. -/
theorem request_done {p : Panel} {bytes : List Byte} (arm : exec c s = dispatchCommand kind serve s)
    (h : InHandover kind r s) (hs : serve r (taken s) = replyDone r.tag bytes (setPanel p (taken s))) :
    exec c s = .next { answered s (doneReply r bytes) with panel := p } :=
  arm.trans (dispatch_replied h (u := setPanel p (taken s)) rfl hs)

/-- A request that is refused without a detail form. -/
theorem request_refused {why : Reason} (arm : exec c s = dispatchCommand kind serve s)
    (h : InHandover kind r s) (hs : serve r (taken s) = replyRefused r.tag r.kind why .none (taken s)) :
    exec c s = .next (answered s (refusedReply r (reasonCode why) [0, 0, 0])) :=
  arm.trans (dispatch_answered h hs)

/-- A request that only reports. -/
theorem request_reported {bytes : List Byte} (arm : exec c s = dispatchCommand kind serve s)
    (h : InHandover kind r s) (hs : serve r (taken s) = replyDone r.tag bytes (taken s)) :
    exec c s = .next (answered s (doneReply r bytes)) :=
  arm.trans (dispatch_answered h hs)

/-! ## Bytes of a payload -/

@[simp] theorem byteAt_cons_zero (b : Byte) (bs : List Byte) : byteAt (b :: bs) 0 = b.toNat := rfl

/-! ## SetPanelMode (R42) -/

theorem panelModeOf_of_mem {v : Byte} {m : PanelMode}
    (h : (v, m) ∈ [(0#8, PanelMode.localMode), (1#8, .remote), (2#8, .lockout)]) : panelModeOf v.toNat = some m := by
  simp only [List.mem_cons, Prod.mk.injEq, List.not_mem_nil, or_false] at h
  rcases h with ⟨rfl, rfl⟩ | ⟨rfl, rfl⟩ | ⟨rfl, rfl⟩ <;> rfl

theorem panelModeOf_eq_none {n : Nat} (h : 2 < n) : panelModeOf n = none := by
  obtain ⟨k, rfl⟩ := Nat.exists_eq_add_of_lt h
  rw [show 2 + k + 1 = k + 3 by omega]; rfl

theorem serveSetPanelMode_known {m : PanelMode} (h : panelModeOf (byteAt r.payload 0) = some m) :
    serveSetPanelMode r s = replyDone r.tag [BitVec.ofNat 8 (panelModeCode s.panel.mode)]
      (setPanel { resetAllAccel s.panel with mode := m } s) := by
  simp only [serveSetPanelMode, h]

theorem serveSetPanelMode_unknown (h : panelModeOf (byteAt r.payload 0) = none) :
    serveSetPanelMode r s = replyRefused r.tag r.kind .badValue .none s := by
  simp only [serveSetPanelMode, h, refuseValue]

/-- The wire value of a panel mode (R42). -/
theorem modeByte_eq (m : PanelMode) :
    BitVec.ofNat 8 (panelModeCode m) = match m with | .localMode => 0 | .remote => 1 | .lockout => 2 := by
  cases m <;> rfl

/-- Settles O18: a known mode byte is taken by `serveSetPanelMode_known`, any other refused. -/
theorem setPanelModeResetsAcceleration : Obligations.SetPanelModeResetsAcceleration := by
  intro r s v hr hp
  have hb : byteAt r.payload 0 = v.toNat := by rw [hp]; rfl
  refine ⟨fun m hm => ?_, fun hv => ?_⟩
  · have done := request_done (c := .setPanelMode) rfl hr
      (serveSetPanelMode_known (s := taken s) (hb ▸ panelModeOf_of_mem hm))
    rw [taken_panel, modeByte_eq] at done
    exact done
  · exact request_refused rfl hr (serveSetPanelMode_unknown (hb ▸ panelModeOf_eq_none hv))

/-! ## SetKeyBinding and SetLampBinding (R43, R46) -/

/-- The table of key actions (R43). -/
theorem keyActionOf_eq_some (code arg : Nat) (a : KeyAction) : keyActionOf code arg = some a ↔
    (arg = 0 ∧ (code, a) ∈ [(0, KeyAction.none), (1, .report), (2, .runStop), (3, .single), (4, .forceTrigger),
        (5, .defaultSetup), (8, .toLocal), (9, .clearPersist)]) ∨
      (code = 6 ∧ 1 ≤ arg ∧ arg ≤ 4 ∧ a = .channelToggle arg) ∨ (code = 7 ∧ arg ≤ 63 ∧ a = .recall arg) ∨
      (code = 10 ∧ arg ≤ 7 ∧ a = .knobHome arg) := by
  unfold keyActionOf
  split <;> simp [and_assoc, eq_comm (a := a)]
  simp_all

/-- The table of lamp sources (R46). -/
theorem lampSourceOf_eq_some (code arg : Nat) (x : LampSource) : lampSourceOf code arg = some x ↔
    (arg = 0 ∧ (code, x) ∈ [(0, LampSource.off), (1, .hostDriven), (2, .running), (3, .stopped), (4, .singlePending),
        (5, .triggered), (7, .remote), (8, .maskFail), (9, .storeBusy)]) ∨
      (code = 6 ∧ 1 ≤ arg ∧ arg ≤ 4 ∧ x = .channelOn arg) := by
  unfold lampSourceOf
  split <;> simp [and_assoc, eq_comm (a := x)]
  simp_all

theorem serveSetKeyBinding_known {k : Key} {a : KeyAction} (hk : s.panel.keys[byteAt r.payload 0]? = some k)
    (ha : keyActionOf (byteAt r.payload 1) (byteAt r.payload 2) = some a) :
    serveSetKeyBinding r s = replyDone r.tag []
      (setPanel { s.panel with keys := s.panel.keys.set (byteAt r.payload 0) { k with action := a } } s) := by
  simp only [serveSetKeyBinding, hk, ha]

theorem serveSetKeyBinding_unknown (h : s.panel.keys[byteAt r.payload 0]? = none ∨
      keyActionOf (byteAt r.payload 1) (byteAt r.payload 2) = none) :
    serveSetKeyBinding r s = replyRefused r.tag r.kind .badValue .none s := by
  rcases h with h | h <;> simp [serveSetKeyBinding, h, refuseValue]

theorem serveSetLampBinding_known {l : Lamp} {src : LampSource} (hl : s.panel.lamps[byteAt r.payload 0]? = some l)
    (hs : lampSourceOf (byteAt r.payload 1) (byteAt r.payload 2) = some src) :
    serveSetLampBinding r s = replyDone r.tag []
      (setPanel { s.panel with lamps := s.panel.lamps.set (byteAt r.payload 0) { l with source := src } } s) := by
  simp only [serveSetLampBinding, hl, hs]

theorem serveSetLampBinding_unknown (h : s.panel.lamps[byteAt r.payload 0]? = none ∨
      lampSourceOf (byteAt r.payload 1) (byteAt r.payload 2) = none) :
    serveSetLampBinding r s = replyRefused r.tag r.kind .badValue .none s := by
  rcases h with h | h <;> simp [serveSetLampBinding, h, refuseValue]

/-- Settles O19: the two tables, and one request of each kind by whether its key or lamp and its code are known. -/
theorem keyAndLampBindingsAreReplaced : Obligations.KeyAndLampBindingsAreReplaced := by
  refine ⟨keyActionOf_eq_some, lampSourceOf_eq_some, fun r s n code arg hp => ?_⟩
  obtain ⟨hn, hc, ha⟩ : byteAt r.payload 0 = n.toNat ∧ byteAt r.payload 1 = code.toNat ∧
      byteAt r.payload 2 = arg.toNat := by rw [hp]; exact ⟨rfl, rfl, rfl⟩
  refine ⟨fun hr hlen => ⟨fun k a hk hka => ?_, fun hbad => ?_⟩,
    fun hr hlen => ⟨fun l src hl hls => ?_, fun hbad => ?_⟩⟩
  · have done := serveSetKeyBinding_known (r := r) (s := taken s) (hn ▸ hk) (by rw [hc, ha]; exact hka)
    rw [hn] at done
    exact request_done rfl hr done
  · refine request_refused rfl hr (serveSetKeyBinding_unknown ?_)
    rw [hn, hc, ha]
    exact hbad.imp_left fun h => List.getElem?_eq_none (by rw [taken_panel, hlen]; exact h)
  · have done := serveSetLampBinding_known (r := r) (s := taken s) (hn ▸ hl) (by rw [hc, ha]; exact hls)
    rw [hn] at done
    exact request_done rfl hr done
  · refine request_refused rfl hr (serveSetLampBinding_unknown ?_)
    rw [hn, hc, ha]
    exact hbad.imp_left fun h => List.getElem?_eq_none (by rw [taken_panel, hlen]; exact h)

/-! ## SetKnobBinding and SetKnobShape (R44, R45) -/

theorem serveSetKnobBinding_noKnob (h : s.panel.knobs[byteAt r.payload 0]? = none) :
    serveSetKnobBinding r s = replyRefused r.tag r.kind .badValue .none s := by
  simp only [serveSetKnobBinding, h, refuseValue]

theorem serveSetKnobBinding_unknownTarget {k : Knob} (hk : s.panel.knobs[byteAt r.payload 0]? = some k)
    (h0 : byteAt r.payload 1 ≠ 0) (ht : knownParam (byteAt r.payload 1) = false) :
    serveSetKnobBinding r s = replyRefused r.tag r.kind .unknownParam .none s := by
  simp only [serveSetKnobBinding, hk, h0, ht, ne_eq, not_false_eq_true, and_self, if_true]

theorem serveSetKnobBinding_known {k : Knob} (hk : s.panel.knobs[byteAt r.payload 0]? = some k)
    (ht : byteAt r.payload 1 = 0 ∨ knownParam (byteAt r.payload 1) = true) :
    serveSetKnobBinding r s = replyDone r.tag [] (setKnob (byteAt r.payload 0) { resetAccel k with
      target := if byteAt r.payload 1 = 0 then none else some (byteAt r.payload 1) } s) := by
  have h : ¬ (byteAt r.payload 1 ≠ 0 ∧ knownParam (byteAt r.payload 1) = false) := by
    rintro ⟨h0, hf⟩; exact ht.elim h0 (by simp [hf])
  simp only [serveSetKnobBinding, hk, if_neg h]

theorem serveSetKnobShape_bad (h : s.panel.knobs[byteAt r.payload 0]? = none ∨ shapeOk r.payload = false) :
    serveSetKnobShape r s = replyRefused r.tag r.kind .badValue .none s := by
  cases hk : s.panel.knobs[byteAt r.payload 0]? with
  | none => simp only [serveSetKnobShape, hk, refuseValue]
  | some k =>
    have bad : shapeOk r.payload = false := h.resolve_left (by simp [hk])
    simp [serveSetKnobShape, hk, bad, refuseValue]

theorem serveSetKnobShape_ok {k : Knob} (hk : s.panel.knobs[byteAt r.payload 0]? = some k)
    (h : shapeOk r.payload = true) :
    serveSetKnobShape r s = replyDone r.tag [] (setKnob (byteAt r.payload 0) { resetAccel k with
      resolution := byteAt r.payload 1, hold := byteAt r.payload 2, ramp := byteAt r.payload 3
      maxMult := byteAt r.payload 4, quickMs := fieldAt r.payload 5 2 } s) := by
  simp only [serveSetKnobShape, hk, h, if_true]

/-- SetKnobBinding by its knob and target (R44; log 23). -/
theorem knobBinding_served {n target : Byte} (hlen : s.panel.knobs.length = 8) (hr : InHandover 0x12 r s)
    (hp : r.payload = [n, target]) :
    (∀ k, s.panel.knobs[n.toNat]? = some k → (target = 0 ∨ knownParam target.toNat = true) →
      exec .setKnobBinding s = .next { answered s (doneReply r []) with
        panel := { s.panel with knobs := s.panel.knobs.set n.toNat { resetAccel k with
          target := if target = 0 then none else some target.toNat } } }) ∧
    (n.toNat ≤ 7 → target ≠ 0 → knownParam target.toNat = false →
      exec .setKnobBinding s = .next (answered s (refusedReply r 4 [0, 0, 0]))) ∧
    (7 < n.toNat → exec .setKnobBinding s = .next (answered s (refusedReply r 5 [0, 0, 0]))) := by
  obtain ⟨hn, ht⟩ : byteAt r.payload 0 = n.toNat ∧ byteAt r.payload 1 = target.toNat := by
    rw [hp]; exact ⟨rfl, rfl⟩
  have zero : target = 0 ↔ target.toNat = 0 := by simp [BitVec.toNat_eq]
  refine ⟨fun k hk hok => ?_, fun hle hne hunk => ?_, fun hgt => ?_⟩
  · have done := serveSetKnobBinding_known (r := r) (s := taken s) (hn ▸ hk) (by rw [ht, ← zero]; exact hok)
    simp only [hn, ht, ← zero] at done
    exact request_done rfl hr done
  · obtain ⟨k, hk⟩ : ∃ k, s.panel.knobs[n.toNat]? = some k := ⟨_, List.getElem?_eq_getElem (by omega)⟩
    exact request_refused rfl hr (serveSetKnobBinding_unknownTarget (hn ▸ hk)
      (by rw [ht, ne_eq, ← zero]; exact hne) (ht ▸ hunk))
  · exact request_refused rfl hr (serveSetKnobBinding_noKnob
      (List.getElem?_eq_none (by rw [hn, taken_panel, hlen]; exact hgt)))

/-- The bytes of a SetKnobShape payload, read back (R45). -/
structure ShapeBytes (p : List Byte) (n res h rr m : Byte) (q : Nat) : Prop where
  knob : byteAt p 0 = n.toNat
  resolution : byteAt p 1 = res.toNat
  hold : byteAt p 2 = h.toNat
  ramp : byteAt p 3 = rr.toNat
  maxMult : byteAt p 4 = m.toNat
  quick : fieldAt p 5 2 = q

theorem shapeBytes_of_payload {p : List Byte} {n res h rr m : Byte} {q : Nat} (hq : q < 65536)
    (hp : p = [n, res, h, rr, m] ++ leBytes 2 q) : ShapeBytes p n res h rr m q := by
  subst hp
  refine ⟨rfl, rfl, rfl, rfl, rfl, ?_⟩
  have := fieldAt_append (a := [n, res, h, rr, m]) (c := []) (n := 2) (v := q) (off := 5) rfl hq
  rwa [List.append_nil] at this

/-- The ranges of a SetKnobShape payload, in its own bytes (R45). -/
theorem ShapeBytes.shapeOk_iff {p : List Byte} {n res h rr m : Byte} {q : Nat} (b : ShapeBytes p n res h rr m q) :
    shapeOk p = true ↔ (res = 1 ∨ res = 2 ∨ res = 4) ∧ h.toNat ≤ 15 ∧ (1 ≤ rr.toNat ∧ rr.toNat ≤ 16) ∧
      (1 ≤ m.toNat ∧ m.toNat ≤ 100) ∧ 5 ≤ q ∧ q ≤ 500 := by
  simp [shapeOk, b.resolution, b.hold, b.ramp, b.maxMult, b.quick, and_assoc, or_assoc, BitVec.toNat_eq]

/-- Settles O20: each request by whether its knob is on the panel and its fields are in range. -/
theorem knobRequestsResetOneKnob : Obligations.KnobRequestsResetOneKnob := by
  intro r s hlen
  refine ⟨fun n target hr hp => knobBinding_served hlen hr hp, fun n res h rr m q hr hq hp => ?_⟩
  have b := shapeBytes_of_payload hq hp
  refine ⟨fun k hk hres hh hr1 hr16 hm1 hm100 hq5 hq500 => ?_, fun hbad => ?_⟩
  · have done := serveSetKnobShape_ok (r := r) (s := taken s) (b.knob ▸ hk)
      (b.shapeOk_iff.2 ⟨hres, hh, ⟨hr1, hr16⟩, ⟨hm1, hm100⟩, hq5, hq500⟩)
    rw [b.knob, b.resolution, b.hold, b.ramp, b.maxMult, b.quick] at done
    exact request_done rfl hr done
  · refine request_refused rfl hr (serveSetKnobShape_bad ?_)
    by_cases hn : 7 < n.toNat
    · exact .inl (List.getElem?_eq_none (by rw [b.knob, taken_panel, hlen]; exact hn))
    · refine .inr (Bool.eq_false_iff.2 fun ok => ?_)
      obtain ⟨hres, hh, hrr, hm, hqr⟩ := b.shapeOk_iff.1 ok
      bv_omega

end Sys2Proof.Machine.FrontPanel
end

section
/-! The panel's lamps, its report and its key scan (R26, R39, R40, R47, R48). -/

namespace Sys2Proof.Machine.FrontPanel

variable {r : Request} {s : State}

/-! ## SetLamp (R47) -/

/-- A pair of a SetLamp payload as the panel reads it. -/
def lampPair (p : Byte × Byte) : Nat × Nat := (p.1.toNat, p.2.toNat)

/-- The payload of a SetLamp gives back its pairs. -/
theorem setLampPairs_bytes {ps : List (Byte × Byte)} (hl : ps.length ≤ 32) :
    setLampPairs (BitVec.ofNat 8 ps.length :: ps.flatMap fun p => [p.1, p.2]) = ps.map lampPair := by
  have count : byteAt (BitVec.ofNat 8 ps.length :: ps.flatMap fun p => [p.1, p.2]) 0 = ps.length := by
    simp; omega
  rw [setLampPairs, count, List.drop_one, List.tail_cons, chunks_flatMap (size := 2) fun _ => rfl, List.map_map]
  rfl

theorem lampPair_fst_ne {p q : Byte × Byte} : (lampPair q).1 ≠ (lampPair p).1 ↔ p.1 ≠ q.1 := by
  simp [lampPair, BitVec.toNat_eq, eq_comm]

/-- The check of a SetLamp's pairs: no lamp is named twice, and each lamp and state is in range. -/
theorem lampPairsOk_iff {n : Nat} : ∀ {ps : List (Byte × Byte)}, lampPairsOk n (ps.map lampPair) = true ↔
    (ps.map (·.1)).Nodup ∧ ∀ p ∈ ps, p.1.toNat < n ∧ p.2.toNat ≤ 1
  | [] => by simp [lampPairsOk]
  | p :: ps => by
    have fresh : ((ps.map lampPair).all fun q => q.1 != (lampPair p).1) = true ↔ p.1 ∉ ps.map (·.1) := by
      simp only [List.all_map, List.all_eq_true, Function.comp, bne_iff_ne, lampPair_fst_ne, List.mem_map, not_exists,
        not_and]
      exact ⟨fun h q hq e => h q hq e.symm, fun h q hq e => h q hq e.symm⟩
    simp only [List.map_cons, lampPairsOk, Bool.and_eq_true, decide_eq_true_eq, fresh, lampPairsOk_iff, List.nodup_cons,
      List.forall_mem_cons]
    simp only [lampPair]
    tauto

@[simp] theorem setHost_length (lamps : List Lamp) (p : Nat × Nat) : (setHost lamps p).length = lamps.length := by
  unfold setHost; split <;> simp

theorem setHost_other {lamps : List Lamp} {p : Nat × Nat} {i : Nat} (h : p.1 ≠ i) :
    (setHost lamps p)[i]? = lamps[i]? := by
  unfold setHost; split <;> simp [h]

theorem setHost_same {lamps : List Lamp} {i v : Nat} {l : Lamp} (h : lamps[i]? = some l) :
    (setHost lamps (i, v))[i]? = some { l with host := v == 1 } := by
  obtain ⟨hi, rfl⟩ := List.getElem?_eq_some_iff.1 h
  simp [setHost, hi]

/-- The host values after some pairs, one lamp after another. -/
theorem foldl_setHost_length (ps : List (Nat × Nat)) (lamps : List Lamp) :
    (ps.foldl setHost lamps).length = lamps.length := by
  induction ps generalizing lamps with
  | nil => rfl
  | cons p ps ih => simp [ih]

/-- A lamp that no pair names keeps its host value. -/
theorem foldl_setHost_unnamed {ps : List (Nat × Nat)} {lamps : List Lamp} {i : Nat} (h : ∀ p ∈ ps, p.1 ≠ i) :
    (ps.foldl setHost lamps)[i]? = lamps[i]? := by
  induction ps generalizing lamps with
  | nil => rfl
  | cons p ps ih =>
    obtain ⟨hp, hps⟩ := List.forall_mem_cons.1 h
    rw [List.foldl_cons, ih hps, setHost_other hp]

/-- A lamp that one pair names takes that pair's state. -/
theorem foldl_setHost_named {ps : List (Byte × Byte)} {lamps : List Lamp} {i v : Byte} {l : Lamp}
    (nodup : (ps.map (·.1)).Nodup) (h : (i, v) ∈ ps) (hl : lamps[i.toNat]? = some l) :
    ((ps.map lampPair).foldl setHost lamps)[i.toNat]? = some { l with host := v.toNat == 1 } := by
  induction ps generalizing lamps with
  | nil => cases h
  | cons p ps ih =>
    obtain ⟨fresh, nodup⟩ := List.nodup_cons.1 nodup
    rw [List.map_cons, List.foldl_cons]
    rcases List.mem_cons.1 h with rfl | h
    · rw [foldl_setHost_unnamed, lampPair, setHost_same hl]
      intro q hq
      obtain ⟨x, hx, rfl⟩ := List.mem_map.1 hq
      exact lampPair_fst_ne.2 fun e => fresh (List.mem_map.2 ⟨x, hx, e.symm⟩)
    · have apart : (lampPair p).1 ≠ i.toNat :=
        lampPair_fst_ne (p := (i, v)).2 fun e => fresh (List.mem_map.2 ⟨_, h, e⟩)
      exact ih nodup h ((setHost_other apart).trans hl)

theorem toNat_beq_one (v : Byte) : (v.toNat == 1) = decide (v = 1) := by
  rw [Bool.eq_iff_iff, beq_iff_eq, decide_eq_true_iff, BitVec.toNat_eq]; rfl

theorem serveSetLamp_ok (h : lampPairsOk s.panel.lamps.length (setLampPairs r.payload) = true) :
    serveSetLamp r s = replyDone r.tag []
      (setPanel { s.panel with lamps := (setLampPairs r.payload).foldl setHost s.panel.lamps } s) := by
  simp only [serveSetLamp, h, if_true]

theorem serveSetLamp_bad (h : lampPairsOk s.panel.lamps.length (setLampPairs r.payload) = false) :
    serveSetLamp r s = replyRefused r.tag r.kind .badValue .none s := by
  simp [serveSetLamp, h, refuseValue]

/-- Settles O21: the pairs pass `lampPairsOk_iff` or are refused, and the fold writes each named lamp once. -/
theorem setLampWritesNamedLamps : Obligations.SetLampWritesNamedLamps := by
  intro r s ps hr hlen _ hmax hp
  have pairs : setLampPairs r.payload = ps.map lampPair := by rw [hp, setLampPairs_bytes hmax]
  have ok : lampPairsOk (taken s).panel.lamps.length (setLampPairs r.payload) = true ↔
      (ps.map (·.1)).Nodup ∧ ∀ p ∈ ps, p.1.toNat < 32 ∧ p.2.toNat ≤ 1 := by
    rw [taken_panel, hlen, pairs, lampPairsOk_iff]
  refine ⟨fun nodup range => ?_, fun hbad => ?_⟩
  · have done := serveSetLamp_ok (ok.2 ⟨nodup, fun p hp => ⟨Nat.lt_succ_of_le (range p hp).1, (range p hp).2⟩⟩)
    refine ⟨_, request_done rfl hr done, ?_, fun i l hl => ⟨fun v hv => ?_, fun hi => ?_⟩⟩
    · rw [foldl_setHost_length, taken_panel, hlen]
    · rw [pairs, taken_panel, foldl_setHost_named nodup hv hl, toNat_beq_one]
    · rw [pairs, taken_panel, foldl_setHost_unnamed, hl]
      intro q hq e
      obtain ⟨p, hp, rfl⟩ := List.mem_map.1 hq
      exact hi (List.mem_map.2 ⟨p, hp, BitVec.eq_of_toNat_eq e⟩)
  · refine request_refused rfl hr (serveSetLamp_bad (Bool.eq_false_iff.2 fun h => ?_))
    obtain ⟨nodup, range⟩ := ok.1 h
    rcases hbad with hdup | ⟨p, hp, hpr⟩
    · exact hdup nodup
    · have := range p hp; omega

/-! ## GetPanel (R39, R40, R48) -/

@[simp] theorem knobBytes_length (k : Knob) : (knobBytes k).length = 14 := by simp [knobBytes]

/-- GetPanel answers 433 bytes, of a panel with its 64 keys, 8 knobs and 32 lamps (R48). -/
theorem panelPayload_length (hk : s.panel.keys.length = 64) (hn : s.panel.knobs.length = 8)
    (hl : s.panel.lamps.length = 32) : (panelPayload s).length = 433 := by
  have keys : (s.panel.keys.flatMap fun k => codeBytes (keyActionCode k.action)).length = 128 := by
    simp [List.length_flatMap, codeBytes, hk]
  have knobs : (s.panel.knobs.flatMap knobBytes).length = 112 := by simp [List.length_flatMap, hn]
  have lamps : (s.panel.lamps.flatMap fun l => codeBytes (lampSourceCode l.source)).length = 64 := by
    simp [List.length_flatMap, codeBytes, hl]
  simp [panelPayload, keys, knobs, lamps, hk, hl, lampOutputs]

/-- Settles O22: the payload is R48's by its definition; a lamp's output byte is `sourceLit` of its source. -/
theorem getPanelReportsThePanel : Obligations.GetPanelReportsThePanel := by
  intro r s hr hk hn hl
  refine ⟨panelPayload s, (lampOutputs s).map boolByte, request_reported rfl hr rfl, panelPayload_length hk hn hl, ?_,
    by simp [lampOutputs, hl], fun i l hi => ⟨sourceLit s l.host l.source, by simp [lampOutputs, hi, boolByte], ?_⟩⟩
  · rw [panelPayload, modeByte_eq]; rfl
  · cases hs : l.source with
    | off => rfl
    | hostDriven => rfl
    | running => simp [sourceLit]
    | stopped => simp [sourceLit]
    | singlePending => intro d hd; simp [sourceLit, sequenceTarget, hd]
    | triggered => simp [sourceLit, Option.isSome_iff_ne_none]
    | channelOn n => simp [sourceLit, State.param, idEnable, chId]
    | remote => simp [sourceLit]
    | maskFail => rfl
    | storeBusy => simp [sourceLit, storeBusy, Option.isSome_iff_ne_none]

/-! ## The key scan (R26) -/

@[simp] theorem scanKeys_length (w : Timer) (down : BitVec 64) (keys : List Key) :
    (scanKeys w down keys).length = keys.length := by simp [scanKeys]

theorem scanKeys_getElem? {w : Timer} {down : BitVec 64} {keys : List Key} {i : Nat} {k : Key}
    (h : keys[i]? = some k) : (scanKeys w down keys)[i]? = some (scanKey w (down.getLsbD i) k) := by
  obtain ⟨hi, rfl⟩ := List.getElem?_eq_some_iff.1 h
  simp [scanKeys, hi]

theorem scanKey_eq (w : Timer) (down : Bool) (k : Key) :
    scanKey w down k = if down = k.lastDown then k else { k with lastDown := down, debounce := w } := by
  simp only [scanKey, eq_comm]

/-- Settles O23: each key is scanned at its own place (`scanKeys_getElem?`). -/
theorem keyScanRestartsChangedKeys : Obligations.KeyScanRestartsChangedKeys := by
  intro s down hp hlen
  have run : exec (.keyScan down) s = .next (scanPanel down s) := command_powered (scanPanel down) hp
  refine ⟨fun off => ?_, fun on => ⟨scanKeys (timerFor s debounceTicks) down s.panel.keys, ?_, by simp [hlen],
    fun i k hk => ?_⟩⟩
  · rw [run, scanPanel, off]; rfl
  · rw [run, scanPanel, on]; rfl
  · rw [scanKeys_getElem? hk, scanKey_eq]; rfl

end Sys2Proof.Machine.FrontPanel
end

section
/-! The panel's keys: what a debounce expiry makes of a press or a release (R27 to R30, R36 to R38). -/

namespace Sys2Proof.Machine.FrontPanel

variable {s : State} {i : Nat} {a : KeyAction} {press : Bool}

theorem timerDue_some {due : Tick} : timerDue s (some due) = true ↔ due ≤ s.trig.timestamp := decide_eq_true_iff

/-- A press or a release, taken by the mode and the key's binding. -/
def keyChange (i : Nat) (press : Bool) (a : KeyAction) (s : State) : State :=
  if press then keyPress i a s else keyRelease i a s

/-- The presses and releases that PanelKey reports (R28, R36, R37). -/
theorem keyChange_reported (h : (s.panel.mode = .localMode ∧ a = .report) ∨
      (s.panel.mode = .remote ∧ (a ≠ .toLocal ∨ press = false)) ∨ s.panel.mode = .lockout) :
    keyChange i press a s = offerKey i press s := by
  cases press with
  | true =>
    rcases h with ⟨hm, ha⟩ | ⟨hm, ha | ha⟩ | hm
    · simp [keyChange, keyPress, hm, ha]
    · simp [keyChange, keyPress, hm, ha]
    · cases ha
    · simp [keyChange, keyPress, hm]
  | false =>
    rcases h with ⟨hm, ha⟩ | ⟨hm, -⟩ | hm
    · simp [keyChange, keyRelease, hm, ha]
    · simp [keyChange, keyRelease, hm]
    · simp [keyChange, keyRelease, hm]

/-- In Local mode a press runs the key's binding, but for a Report key's (R28 to R30). -/
theorem keyChange_local_press (hm : s.panel.mode = .localMode) (ha : a ≠ .report) :
    keyChange i true a s = setPanel (runAction a s.panel) s := by simp [keyChange, keyPress, hm, ha]

/-- In Local mode a release does nothing, but for a Report key's (R28). -/
theorem keyChange_local_release (hm : s.panel.mode = .localMode) (ha : a ≠ .report) :
    keyChange i false a s = s := by simp [keyChange, keyRelease, hm, ha]

/-- In Remote mode the press of a Local key returns the panel to Local (R38). -/
theorem keyChange_remote_toLocal (hm : s.panel.mode = .remote) :
    keyChange i true .toLocal s = switchToLocal s := by simp [keyChange, keyPress, hm]

/-- A key once its debounce timer has expired: the timer stopped, the debounced state the input (R27). -/
def settleKey (i : Nat) (k : Key) (s : State) : State :=
  setPanel { s.panel with keys := s.panel.keys.set i { k with debounce := none, down := k.lastDown } } s

/-- A due debounce timer settles its key, and a change of its debounced state is taken (R27). -/
theorem debounceExpiry_due {k : Key} {due : Tick} (hp : s.powered = true) (hk : s.panel.keys[i]? = some k)
    (hd : k.debounce = some due) (hdue : due ≤ s.trig.timestamp) :
    exec (.debounceExpiry i) s = .next
      (if k.lastDown = k.down then settleKey i k s else keyChange i k.lastDown k.action (settleKey i k s)) := by
  have run : exec (.debounceExpiry i) s = .next (debounceKey i s) := command_powered (debounceKey i) hp
  have fired : timerDue s k.debounce ≠ false := by rw [hd, timerDue_some.2 hdue]; decide
  rw [run]
  simp only [debounceKey, hk, if_neg fired]
  rfl

/-- Settles O24: the expiry settles the key (`debounceExpiry_due`), and `keyChange` acts by mode and binding. -/
theorem debounceExpiryPressesOrReleases : Obligations.DebounceExpiryPressesOrReleases := by
  intro s i k due p hp _ hk hd hdue hpanel
  obtain rfl : p = (settleKey i k s).panel := hpanel
  have run := debounceExpiry_due hp hk hd hdue
  refine ⟨fun same => by rw [run, if_pos same]; rfl, fun changed report hreport => ?_⟩
  rw [if_neg changed] at run
  have reported (h : (s.panel.mode = .localMode ∧ k.action = .report) ∨
      (s.panel.mode = .remote ∧ (k.action ≠ .toLocal ∨ k.lastDown = false)) ∨ s.panel.mode = .lockout) :
      exec (.debounceExpiry i) s = .next { s with panel := (settleKey i k s).panel, link := report } := by
    rw [run, keyChange_reported (s := settleKey i k s) h, hreport]; rfl
  refine ⟨fun hm ha => reported (.inl ⟨hm, ha⟩), fun hm ha hup => ?_, fun hm ha hdown => ?_, fun hm ha hdown => ?_,
    fun hm h => reported (.inr (.inl ⟨hm, h⟩)), fun hm => reported (.inr (.inr hm))⟩
  · rw [run, hup, keyChange_local_release (s := settleKey i k s) hm ha]; rfl
  · rw [run, hdown, keyChange_local_press (s := settleKey i k s) hm ha]
    cases k.action <;> rfl
  · rw [run, hdown, ha, keyChange_remote_toLocal (s := settleKey i k s) hm]; rfl

end Sys2Proof.Machine.FrontPanel
end
section
/-! The panel's knobs: transitions, detents and acceleration (R31 to R35). -/

namespace Sys2Proof.Machine.FrontPanel

variable {s : State} {i : Nat} {k : Knob} {new : BitVec 2} {cw : Bool}

/-! ## Transitions (R31) -/

theorem perDetent_pos (resolution : Nat) : 0 < perDetent resolution := by
  unfold perDetent; split <;> [decide; (split <;> decide)]

theorem classify_same : ∀ l : BitVec 2, classify l l = .none := by decide

/-- Two changed lines are no step of the Gray sequence. -/
theorem classify_not : ∀ l : BitVec 2, classify l (~~~ l) = .illegal := by decide

/-- A step forward or back along the Gray sequence. -/
def legalStep (cw : Bool) : Transition := if cw then .forward else .reverse

/-- The eight steps of the Gray sequence 00, 01, 11, 10. -/
theorem classify_graySteps {old new : BitVec 2} {step : Int} (h : ((old, new), step) ∈
      [((0#2, 1#2), 1), ((1#2, 3#2), 1), ((3#2, 2#2), 1), ((2#2, 0#2), (1 : Int)),
       ((0#2, 2#2), -1), ((2#2, 3#2), -1), ((3#2, 1#2), -1), ((1#2, 0#2), -1)]) :
    ∃ cw, classify old new = legalStep cw ∧ step = direction cw := by
  have all : ∀ x ∈ [((0#2, 1#2), 1), ((1#2, 3#2), 1), ((3#2, 2#2), 1), ((2#2, 0#2), (1 : Int)),
       ((0#2, 2#2), -1), ((2#2, 3#2), -1), ((3#2, 1#2), -1), ((1#2, 0#2), -1)],
      ∃ cw, classify x.1.1 x.1.2 = legalStep cw ∧ x.2 = direction cw := by decide
  exact all _ h

/-- A powered panel that scans decodes a change of a knob's lines. -/
theorem knobLineChange_run (hp : s.powered = true) (hs : s.panel.scanning = true) :
    exec (.knobLineChange i new) s = .next (decodeKnob i new (drivePin i new s)) := by
  show Host.Outcome.next (knobLines i new s) = _
  simp [knobLines, hp, hs]

theorem decodeKnob_none (hk : s.panel.knobs[i]? = some k) (h : classify k.lines new = .none) :
    decodeKnob i new s = s := by simp [decodeKnob, hk, h]

theorem decodeKnob_illegal (hk : s.panel.knobs[i]? = some k) (h : classify k.lines new = .illegal) :
    decodeKnob i new s = setKnob i { k with lines := new, count := 0, faults := satSucc 65535 k.faults } s := by
  simp [decodeKnob, hk, h]

theorem decodeKnob_step (hk : s.panel.knobs[i]? = some k) (h : classify k.lines new = legalStep cw) :
    decodeKnob i new s = countTransition i (direction cw) { k with lines := new } s := by
  cases cw <;> simp_all [decodeKnob, legalStep, direction]

/-- A transition that completes no detent is counted. -/
theorem countTransition_partial {d : Int} (h1 : k.count + d ≠ perDetent k.resolution)
    (h2 : k.count + d ≠ -perDetent k.resolution) :
    countTransition i d k s = setKnob i { k with count := k.count + d } s := by simp [countTransition, h1, h2]

/-- A transition that completes a detent sets the count to 0, and the detent is taken. -/
theorem countTransition_detent
    (h : k.count + direction cw = if cw then perDetent k.resolution else -perDetent k.resolution) :
    countTransition i (direction cw) k s = takeDetent i cw { k with count := 0 } s := by
  have pos := perDetent_pos k.resolution
  cases cw with
  | true => simp only [if_true] at h; simp only [countTransition, h, if_true]
  | false =>
    simp only [Bool.false_eq_true, if_false] at h
    have ne : -perDetent k.resolution ≠ perDetent k.resolution := by omega
    simp only [countTransition, h, if_neg ne, if_true]

/-- Settles O25: by how `classify` reads the step, a knob's decoder counts it, marks a fault or does nothing. -/
theorem knobLineChangeCountsTransitions : Obligations.KnobLineChangeCountsTransitions := by
  refine ⟨by
    intro resolution n h
    simp only [List.mem_cons, Prod.mk.injEq, List.not_mem_nil, or_false] at h
    rcases h with ⟨rfl, rfl⟩ | ⟨rfl, rfl⟩ | ⟨rfl, rfl⟩ <;> rfl, fun s i k new pins hp hs _ hk hpins => ?_⟩
  subst hpins
  have run := knobLineChange_run (i := i) (new := new) hp hs
  have knob : (drivePin i new s).panel.knobs[i]? = some k := hk
  refine ⟨fun same => ?_, fun both => ?_, fun step hstep h1 h2 => ?_⟩
  · rw [run, decodeKnob_none knob (by rw [same]; exact classify_same _)]; rfl
  · rw [run, decodeKnob_illegal knob (by rw [both]; exact classify_not _)]; rfl
  · obtain ⟨cw, hc, rfl⟩ := classify_graySteps hstep
    rw [run, decodeKnob_step knob hc, countTransition_partial (k := { k with lines := new }) h1 h2]; rfl

/-! ## Detents (R32 to R35) -/

theorem paramInfo_of_mem : ∀ row ∈ catalogue, paramInfo row.id = some row := by decide

/-- The knob unit of a row of the catalogue (R34). -/
theorem knobUnit_of_mem {row : ParamInfo} (h : row ∈ catalogue) : knobUnit s row.id =
    if row.id = 0x75 then max 1 ((windowWidth (s.ras.displayed.getD (valuesLength s.setup.values))
      (getParam s.setup.values 0x74).toNat / 1000 : Nat) : Int) else row.unit := by
  simp only [knobUnit, paramInfo_of_mem row h, Nat.cast_max, Nat.cast_one]
  rfl

/-- The relative pair of a detent, by the kind of the row (R34). -/
theorem detentDelta_of_mem {row : ParamInfo} (h : row ∈ catalogue) (m : Nat) : detentDelta s row.id cw m =
    direction cw * if row.kind = .range then m * knobUnit s row.id else 1 := by
  simp only [detentDelta, paramInfo_of_mem row h]
  split <;> ring

/-- A detent of a bound knob in Local mode hands a relative pair on (R34). -/
theorem takeDetent_bound {k' : Knob} {id : Nat} (hk' : accelerate (timerFor s (k.quickMs * ticksPerMs)) cw k = k')
    (hm : s.panel.mode = .localMode) (ht : k.target = some id) :
    takeDetent i cw k s = setPanel { s.panel with
      knobs := s.panel.knobs.set i k'
      toSetup := s.panel.toSetup ++ [⟨[(id, .relative (detentDelta s id cw k'.mult))], .keep⟩] } s := by
  have target : k'.target = some id := by rw [← hk', ← ht]; rfl
  simp only [takeDetent, hk', setKnob_panel, hm, target]
  rfl

/-- Any other detent is reported (R35). -/
theorem takeDetent_reported {k' : Knob} (hk' : accelerate (timerFor s (k.quickMs * ticksPerMs)) cw k = k')
    (h : s.panel.mode ≠ .localMode ∨ k.target = none) :
    takeDetent i cw k s = offer (.panelKnob i (direction cw * k'.mult)) (setKnob i k' s) := by
  have target : k'.target = k.target := by rw [← hk']; rfl
  simp only [takeDetent, hk', setKnob_panel, target]
  split
  next hm ht => rcases h with h | h <;> simp_all
  next => rfl

/-- Settles O26: the transition completes the detent (`countTransition_detent`), `accelerate` is R32's rule, and the
knob's binding decides where the detent goes. -/
theorem detentAcceleratesAndMoves : Obligations.DetentAcceleratesAndMoves := by
  intro s i k k' new cw pins goesOn m run hp hs _ hk hpins hstep hcount hgoes hrun hm hk'
  subst hpins
  have knob : (drivePin i new s).panel.knobs[i]? = some k := hk
  have fast : accelerate (timerFor (drivePin i new s) (k.quickMs * ticksPerMs)) cw
      { k with lines := new, count := 0 } = k' := by
    subst hgoes hrun hm hk'; rfl
  have mult : k'.mult = m := by rw [hk']
  have moves : exec (.knobLineChange i new) s =
      .next (takeDetent i cw { k with lines := new, count := 0 } (drivePin i new s)) := by
    rw [knobLineChange_run hp hs, decodeKnob_step knob hstep,
      countTransition_detent (k := { k with lines := new }) hcount]
  refine ⟨fun row hrow unit delta hlocal htarget hunit hdelta => ?_, fun h => ?_⟩
  · have pair : detentDelta s row.id cw k'.mult = delta := by
      rw [detentDelta_of_mem hrow, knobUnit_of_mem hrow, ← hunit, mult, hdelta]; rfl
    rw [moves, takeDetent_bound (k := { k with lines := new, count := 0 }) fast hlocal htarget, ← pair]; rfl
  · rw [moves, takeDetent_reported (k := { k with lines := new, count := 0 }) fast h, mult]; rfl

end Sys2Proof.Machine.FrontPanel
end

section
/-! The timers' expiries (R33, R41, R60 to R63, R106, R108, R112, R196) and the keys that force a trigger (R29). -/

namespace Sys2Proof.Machine.FrontPanel

variable {s : State} {c : CurSegment} {d : Descriptor} {q : TrigSettings} {written : Bool}

/-! ## Timers whose expiry is due -/

theorem frameTimeout_due {a : Assembly} (ha : s.link.asm = some a) (h : a.due ≤ s.trig.timestamp) :
    frameTimeout s = countFault .timeout (hunt s) := by
  simp [frameTimeout, ha, tickReached, h]

theorem quickExpiry_due {i : Nat} {k : Knob} {due : Tick} (hk : s.panel.knobs[i]? = some k)
    (hq : k.quick = some due) (h : due ≤ s.trig.timestamp) :
    quickExpiry i s = setKnob i { resetAccel k with count := k.count } s := by
  simp [quickExpiry, hk, hq, timerDue_some, h]

theorem pulseExpiry_due {due : Tick} (hd : s.panel.triggered = some due) (h : due ≤ s.trig.timestamp) :
    pulseExpiry s = setPanel { s.panel with triggered := none } s := by
  simp [pulseExpiry, hd, timerDue_some, h]

theorem refreshInterval_due (h : s.mem.intervalDue ≤ s.trig.timestamp) :
    refreshInterval s = { s with mem := { s.mem with
      owed := min 8 (s.mem.owed + 1), intervalDue := s.mem.intervalDue + 78000#64 } } := by
  simp only [refreshInterval, tickReached, h, decide_true, if_true]; rfl

theorem endRefresh_due {due : Tick} (hr : s.mem.refreshing = some due) (h : due ≤ s.trig.timestamp) :
    endRefresh s = { s with mem := { s.mem with
      banks := s.mem.banks.map (fun _ => .closed), refreshing := none, afterReset := false
      owed := if s.mem.afterReset then s.mem.owed else s.mem.owed - 1 } } := by
  simp only [endRefresh, hr, timerDue_some.2 h, if_true]

/-- Settles O49: each expiry comes, its timer being due. -/
theorem timerExpiriesDoTheirPart : Obligations.TimerExpiriesDoTheirPart := by
  intro s due hp hdue
  refine ⟨fun bytes ha => ⟨frameTimeout s, command_powered frameTimeout hp, ?_⟩, fun i k _ hk hq => ?_, fun ht => ?_,
    fun hi => ?_, fun hr => ?_⟩
  · rw [frameTimeout_due ha hdue]; exact ⟨rfl, rfl⟩
  · exact (command_powered (quickExpiry i) hp).trans (by rw [quickExpiry_due hk hq hdue]; rfl)
  · exact (command_powered pulseExpiry hp).trans (by rw [pulseExpiry_due ht hdue]; rfl)
  · exact (command_powered refreshInterval hp).trans (by rw [refreshInterval_due (hi ▸ hdue), hi])
  · exact (command_powered endRefresh hp).trans (by rw [endRefresh_due hr hdue])

/-! ## Forced triggers (R59, R61 to R63) -/

/-- The engine's part of an acceptance, by the latched holdoff (R59; log 15). -/
theorem engineAccept_eq (hq : s.trig.settings = some q) : engineAccept s = { s with
    trig := { s.trig with
      arm := .idle, auto := none
      holdoff := if q.holdoff ≤ 0 then s.trig.holdoff
        else some (s.trig.timestamp + BitVec.ofNat 64 (q.holdoff.toNat * 100)) }
    panel := { s.panel with triggered := some (s.trig.timestamp + 1000000000#64) } } := by
  simp only [engineAccept, hq]
  by_cases h : q.holdoff ≤ 0
  · rw [if_pos (by omega), if_pos h]; rfl
  · rw [if_neg (by omega), if_neg h]; rfl

/-- A forced trigger accepted in Armed, at the newest tick (R59, R74). -/
theorem acceptTrigger_forced (hc : s.cap.cur = some c) (hph : c.phase = .armed) (hd : s.cap.desc = some d)
    (hq : s.trig.settings = some q) (hw : written = (c.formed == 0 && c.armedAny)) :
    acceptTrigger false s = accepted false written c d q s := by
  rw [acceptTrigger, engineAccept_eq hq]
  simp only [captureTrigger, accepted, hc, hd, hph, if_true, Bool.not_false, Bool.true_and, ← hw]
  cases written <;> rfl

/-- PostFill goes on while a point is left to write. -/
theorem checkPostFill_left (hc : s.cap.cur = some c) (hr : c.remaining ≠ 0) : checkPostFill s = s := by
  simp [checkPostFill, hc, hr]

/-- A force in Armed whose trigger point is not the record's last is an acceptance and nothing more (R62, R63). -/
theorem forceAccept_armed (hc : s.cap.cur = some c) (hph : c.phase = .armed) (hd : s.cap.desc = some d)
    (hq : s.trig.settings = some q) (hw : written = (c.formed == 0 && c.armedAny))
    (hlt : d.t + written.toNat < d.lEff) : forceAccept s = accepted false written c d q s := by
  rw [forceAccept, acceptTrigger_forced hc hph hd hq hw]
  exact checkPostFill_left rfl (by show d.lEff - d.t - written.toNat ≠ 0; omega)

theorem takeForce_idle (h : s.trig.arm = .idle) : takeForce s = (s, 2) := by simp only [takeForce, h]

theorem takeForce_preFill (h : s.trig.arm = .preFill) :
    takeForce s = ({ s with trig := { s.trig with pendingForce := true } }, 1) := by simp only [takeForce, h]

theorem takeForce_armed (h : s.trig.arm = .armed) : takeForce s = (forceAccept s, 0) := by simp only [takeForce, h]

/-- The state with one force of the panel taken, `n` left. -/
def withForces (n : Nat) (s : State) : State := setPanel { s.panel with toTrigger := n } s

/-- A ForceTrigger key's event takes one force of the panel's queue (R29). -/
theorem keyForceTrigger_run {n : Nat} (hp : s.powered = true) (hn : s.panel.toTrigger = n + 1) :
    exec .keyForceTrigger s = .next (takeForce (withForces n s)).1 := by
  have run : exec .keyForceTrigger s = .next (takeKeyForce s) := command_powered takeKeyForce hp
  simp [run, takeKeyForce, hn, withForces, setPanel]

/-- The auto timer's expiry, from the tick before its due tick on (R62). -/
theorem autoExpiry_meets {due : Tick} (ha : s.trig.auto = some due)
    (h : due.toNat ≤ s.trig.timestamp.toNat + 1) :
    autoExpiry s = forceAccept { s with trig := { s.trig with auto := none } } := by
  simp [autoExpiry, ha, h]

theorem autoExpiry_early {due : Tick} (ha : s.trig.auto = some due)
    (h : s.trig.timestamp.toNat + 1 < due.toNat) : autoExpiry s = s := by
  simp [autoExpiry, ha, h]

theorem holdoffExpiry_meets {due : Tick} (hh : s.trig.holdoff = some due)
    (h : due.toNat ≤ s.trig.timestamp.toNat + 1) :
    holdoffExpiry s = { s with trig := { s.trig with holdoff := none } } := by
  simp [holdoffExpiry, hh, h]

theorem holdoffExpiry_early {due : Tick} (hh : s.trig.holdoff = some due)
    (h : s.trig.timestamp.toNat + 1 < due.toNat) : holdoffExpiry s = s := by
  simp [holdoffExpiry, hh, h]

/-- Settles O28: the key's force by the arm view, the timers by whether they meet the next sample. -/
theorem keyAndAutoTimerForceTriggers : Obligations.KeyAndAutoTimerForceTriggers := by
  intro s hp
  have auto : exec .autoTimerExpiry s = .next (autoExpiry s) := command_powered autoExpiry hp
  have holdoff : exec .holdoffExpiry s = .next (holdoffExpiry s) := command_powered holdoffExpiry hp
  refine ⟨fun n hn => ?_, fun due c d q written ha hle hc hph hd hq hw hlt => ?_, fun due hh hle => ?_,
    fun due hlt => ⟨fun ha => ?_, fun hh => ?_⟩⟩
  · have key := keyForceTrigger_run hp hn
    refine ⟨fun harm => ?_, fun harm => ?_, fun c d q written harm hc hph hd hq hw hlt => ?_⟩
    · rw [key, takeForce_idle (s := withForces n s) harm]; rfl
    · rw [key, takeForce_preFill (s := withForces n s) harm]; rfl
    · rw [key, takeForce_armed (s := withForces n s) harm]
      exact congrArg _ (forceAccept_armed (s := withForces n s) hc hph hd hq hw hlt)
  · rw [auto, autoExpiry_meets ha hle]
    exact congrArg _ (forceAccept_armed (s := { s with trig := { s.trig with auto := none } }) hc hph hd hq hw hlt)
  · rw [holdoff, holdoffExpiry_meets hh hle]
  · rw [auto, autoExpiry_early ha hlt]
  · rw [holdoff, holdoffExpiry_early hh hlt]

end Sys2Proof.Machine.FrontPanel
end

section
/-! Run control: what the begin and the drop of a segment leave alone, and the RunStop, Single and ClearPersist keys (R29,
R83 to R85, R135). -/

namespace Sys2Proof.Machine.FrontPanel

variable {s t u : State}

/-! ## The life of a segment (R74 to R84) -/

/-- Only the segment in flight, the segment table, the gather queue, the Triggered pulse and the engine, but for its
counter, differ. -/
def SegmentOnly (s t : State) : Prop :=
  t = { s with
    panel := { s.panel with triggered := t.panel.triggered }
    trig := { t.trig with timestamp := s.trig.timestamp }
    cap := { s.cap with
      table := t.cap.table, cur := t.cap.cur, assembly := t.cap.assembly, gather := t.cap.gather
      nextIdent := t.cap.nextIdent } }

theorem SegmentOnly.trans (h : SegmentOnly s t) (k : SegmentOnly t u) : SegmentOnly s u := by
  rw [SegmentOnly] at h k ⊢; rw [k, h]

theorem SegmentOnly.timestamp (h : SegmentOnly s t) : t.trig.timestamp = s.trig.timestamp := by
  rw [SegmentOnly] at h; rw [h]

theorem pushBurst_segmentOnly (b : CapBurst) (s : State) : SegmentOnly s (pushBurst b s) := by
  unfold pushBurst; split <;> rfl

theorem flushChannel_segmentOnly (s : State) (ch : Nat) : SegmentOnly s (flushChannel s ch) := by
  unfold flushChannel; split
  · exact SegmentOnly.trans (t := setAssembly ch none s) rfl (pushBurst_segmentOnly _ _)
  · rfl

theorem flushAssembly_segmentOnly (s : State) : SegmentOnly s (flushAssembly s) :=
  (((flushChannel_segmentOnly s 1).trans (flushChannel_segmentOnly _ 2)).trans (flushChannel_segmentOnly _ 3)).trans
    (flushChannel_segmentOnly _ 4)

theorem dropCurrent_segmentOnly (s : State) : SegmentOnly s (dropCurrent s) := by
  unfold dropCurrent; split
  · rfl
  · refine (flushAssembly_segmentOnly s).trans ?_
    dsimp only; split <;> rfl

/-- A drop leaves no segment in flight (R84). -/
theorem dropCurrent_cur (s : State) : (dropCurrent s).cap.cur = none := by
  unfold dropCurrent; split
  · assumption
  · rfl

/-- Which segment is in flight, in which buffer, and how many records the table holds. -/
def segmentView (s : State) : Option (Nat × Nat) × Nat :=
  (s.cap.cur.map fun c => (c.index, c.buffer), s.cap.table.length)

/-- A step of the segment in flight: it stays the segment it was. -/
def StaysSegment (s t : State) : Prop := SegmentOnly s t ∧ segmentView t = segmentView s

theorem StaysSegment.trans (h : StaysSegment s t) (k : StaysSegment t u) : StaysSegment s u :=
  ⟨h.1.trans k.1, k.2.trans h.2⟩

theorem acceptTrigger_stays (fire : Bool) (s : State) : StaysSegment s (acceptTrigger fire s) := by
  unfold acceptTrigger captureTrigger
  split
  next c d hc hd =>
    dsimp only; split
    · refine ⟨rfl, ?_⟩
      have cur : s.cap.cur = some c := hc
      simp [segmentView, updateRecord, cur]
      rfl
    · exact ⟨rfl, rfl⟩
  next => exact ⟨rfl, rfl⟩

theorem latched_stays (q : TrigSettings) (s : State) :
    StaysSegment s (armAuto { s with trig := { latchAtArmed q s.trig with arm := .armed } }) := by
  unfold latchAtArmed; split <;> exact ⟨rfl, rfl⟩

/-- A pending force taken at the entry to Armed (R64). -/
theorem pendingForce_stays (s : State) :
    StaysSegment s (acceptTrigger false { s with trig := { s.trig with pendingForce := false } }) :=
  StaysSegment.trans (t := { s with trig := { s.trig with pendingForce := false } }) ⟨rfl, rfl⟩
    (acceptTrigger_stays false _)

theorem enterArmed_stays (c : CurSegment) (s : State) : StaysSegment (setCur c s) (enterArmed c s) := by
  have armed : StaysSegment (setCur c s) (setCur { c with phase := .armed, armedAny := false } s) := ⟨rfl, rfl⟩
  have latched := armed.trans (latched_stays (liveTrig (setCur { c with phase := .armed, armedAny := false } s)) _)
  unfold enterArmed; dsimp only; split
  · exact latched.trans (pendingForce_stays _)
  · exact latched

theorem enterPreFill_stays {d : Descriptor} {c : CurSegment} (hc : s.cap.cur = some c) :
    StaysSegment s (enterPreFill d c s) := by
  have begun : StaysSegment s
      (tellPreFill (setCur { c with phase := .preFill, wpos := 0, formed := 0, groups := [] } s)) :=
    ⟨rfl, by simp [segmentView, hc]⟩
  unfold enterPreFill; dsimp only; split
  · exact begun.trans (enterArmed_stays _ (tellPreFill (setCur _ s)))
  · exact begun

theorem leaveHolding_stays (s : State) : StaysSegment s (leaveHolding s) := by
  unfold leaveHolding
  split
  next c d hc hd => split <;> [exact enterPreFill_stays hc; exact ⟨rfl, rfl⟩]
  next => exact ⟨rfl, rfl⟩

/-- A segment begun is the one in flight, with a record of its own (R77). -/
theorem beginSegment_view (index buffer : Nat) (s : State) :
    segmentView (beginSegment index buffer s) = (some (index, buffer), s.cap.table.length + 1) := by
  unfold beginSegment
  rw [(leaveHolding_stays _).2]
  simp [segmentView]

theorem beginSegment_segmentOnly (index buffer : Nat) (s : State) : SegmentOnly s (beginSegment index buffer s) := by
  unfold beginSegment
  refine SegmentOnly.trans ?_ (leaveHolding_stays _).1
  rfl

/-! ## Run control (R67, R83 to R85, R90) -/

/-- Run control touches only what EffectOnly names, and never the timestamp counter. -/
theorem runControlFrame_of_effect (h : EffectOnly s t) (ht : t.trig.timestamp = s.trig.timestamp) :
    RunControlFrame s t := by
  rw [EffectOnly] at h
  refine ⟨?_, ?_, ?_, ?_, ?_, ?_, ?_, ?_, ?_, ?_, ?_, ?_, ?_, ?_, ht⟩ <;> rw [h]

/-- A segment begun in a new capture is that capture's first (R67, R77). -/
theorem startCapture_new (s : State) : NewCapture s (startCapture s) := by
  have only := beginSegment_segmentOnly 1 0 (takeDescriptor s)
  have view := Prod.mk.inj (beginSegment_view 1 0 (takeDescriptor s))
  rw [SegmentOnly] at only
  refine ⟨?_, ?_, view.2, view.1, ?_, ?_⟩ <;> (rw [startCapture, only]; rfl)

/-- The state `t` is `b` with a run state set and reported, and notices offered. -/
structure RunStateTold (r : RunState) (b t : State) : Prop where
  cap : t.cap = { b.cap with runState := r }
  runView : t.ras.runView = r
  trig : t.trig = b.trig
  setup : t.setup = b.setup

theorem offerRunState_told (r : RunState) (b : State) : RunStateTold r b (offerRunState (setRunState r b)) :=
  ⟨rfl, rfl, rfl, rfl⟩

/-- A new capture begun and its run state told is a new capture of any state with the capture number before it. -/
theorem newCapture_of_told {r : RunState} (k : RunStateTold r (startCapture u) t) (hn : u.cap.capNo = s.cap.capNo) :
    NewCapture s t := by
  have new := startCapture_new u
  unfold NewCapture at new ⊢
  rw [k.cap, k.setup, ← hn]
  exact new

/-- The failure latch cleared, as Run and Single do first (R83, R85). -/
def clearFail (s : State) : State := { s with cap := { s.cap with failLatch := false } }

/-- Stop drops the segment in flight and reports Stopped (R84). -/
theorem captureStop_told (h : s.cap.runState ≠ .stopped) : RunStateTold .stopped (dropCurrent s) (captureStop s) := by
  unfold captureStop; split
  · contradiction
  all_goals exact ⟨rfl, rfl, rfl, rfl⟩

/-- The segment in which Run resumes a stopped capture (R83). -/
def resumed (s : State) : State := beginSegment (finishedCount s + 1) (finishedCount s) (clearFail s)

/-- Run on a stopped part (R83). -/
theorem captureRun_stopped (h : s.cap.runState = .stopped) : captureRun s =
    if canResume s then (offerRunState (setRunState (stateForTarget (resumed s)) (resumed s)), 1)
    else (offerRunState (setRunState (stateForTarget (startCapture (clearFail s))) (startCapture (clearFail s))),
      0) := by
  rw [captureRun, h]; rfl

/-- A run begins Running or in a Sequence. -/
theorem stateForTarget_cases (s : State) : stateForTarget s = .running ∨ stateForTarget s = .sequence := by
  unfold stateForTarget; split <;> simp

/-- Single makes a running capture a sequence of one (R85). -/
theorem captureSingle_running (h : s.cap.runState = .running) :
    RunStateTold .sequence { clearFail s with cap := { (clearFail s).cap with
      desc := s.cap.desc.map fun d => { d with n := 1 } } } (captureSingle s) := by
  rw [captureSingle]
  dsimp only
  rw [h]
  exact ⟨rfl, rfl, rfl, rfl⟩

/-- The state from which Single starts a new capture: a sequence that is finishing has ended (R85, R91). -/
def beforeSingle (s : State) : State :=
  if s.cap.runState = .finishing then offerAcqDone 2 (clearFail s) else clearFail s

theorem beforeSingle_cap (s : State) : (beforeSingle s).cap = (clearFail s).cap := by
  unfold beforeSingle; split <;> rfl

theorem beforeSingle_trig (s : State) : (beforeSingle s).trig = s.trig := by
  unfold beforeSingle; split <;> rfl

/-- Single starts a new capture when none is running (R85). -/
theorem captureSingle_starts (h : s.cap.runState ≠ .running) :
    RunStateTold .sequence (startCapture (dropCurrent (beforeSingle s))) (captureSingle s) := by
  unfold captureSingle; dsimp only; split
  · contradiction
  all_goals exact offerRunState_told _ _

theorem startCapture_timestamp (s : State) : (startCapture s).trig.timestamp = s.trig.timestamp :=
  (beginSegment_segmentOnly 1 0 (takeDescriptor s)).timestamp

theorem startCapture_failLatch (s : State) : (startCapture s).cap.failLatch = s.cap.failLatch := by
  have only := beginSegment_segmentOnly 1 0 (takeDescriptor s)
  rw [SegmentOnly] at only
  rw [startCapture, only]; rfl

/-- A drop keeps the failure latch and the capture number (R84). -/
theorem dropCurrent_cap (s : State) : (dropCurrent s).cap.failLatch = s.cap.failLatch ∧
    (dropCurrent s).cap.capNo = s.cap.capNo := by
  have only := dropCurrent_segmentOnly s
  rw [SegmentOnly] at only
  rw [only]
  exact ⟨rfl, rfl⟩

/-! ## The keys (R29, R83 to R85, R135) -/

/-- The state with the oldest capture event of the panel taken, `rest` left. -/
def withCaptureKeys (rest : List CaptureKey) (s : State) : State := setPanel { s.panel with toCapture := rest } s

theorem takeCaptureKey_oldest {k : CaptureKey} {rest : List CaptureKey} (f : State → State)
    (h : s.panel.toCapture = k :: rest) : takeCaptureKey k f s = f (withCaptureKeys rest s) := by
  simp only [takeCaptureKey, h, if_true]; rfl

/-- What a capture key leaves alone. -/
theorem captureKey_frame {rest : List CaptureKey} (h : EffectOnly (withCaptureKeys rest s) t)
    (ht : t.trig.timestamp = s.trig.timestamp) :
    RunControlFrame s t ∧ t.panel.toCapture = rest ∧ t.link.replies = s.link.replies := by
  refine ⟨runControlFrame_of_effect (s := withCaptureKeys rest s) h ht, ?_, ?_⟩ <;>
    (rw [EffectOnly] at h; rw [h]; rfl)

/-- What the run/stop toggle does to the capture controller and the rasterizer's view (R29, R83, R84). -/
structure Toggled (s t : State) : Prop where
  timestamp : t.trig.timestamp = s.trig.timestamp
  runView : t.ras.runView = t.cap.runState
  stops : s.cap.runState ≠ .stopped → t.cap.runState = .stopped ∧ t.cap.cur = none ∧ t.cap.desc = s.cap.desc
  runs : s.cap.runState = .stopped → t.cap.failLatch = false ∧
    (t.cap.runState = .running ∨ t.cap.runState = .sequence) ∧
    (canResume s = true → t.cap.desc = s.cap.desc ∧ t.cap.capNo = s.cap.capNo) ∧
    (canResume s = false → NewCapture s t)

theorem toggleRun_effectOnly (s : State) : EffectOnly s (toggleRun s) := by
  unfold toggleRun; split <;> [exact captureRun_effectOnly s; exact captureStop_effectOnly s]

theorem captureStop_toggled (h : s.cap.runState ≠ .stopped) : Toggled s (captureStop s) := by
  have told := captureStop_told h
  have only := dropCurrent_segmentOnly s
  refine ⟨by rw [told.trig, only.timestamp], by rw [told.runView, told.cap], fun _ => ⟨by rw [told.cap], ?_, ?_⟩,
    fun st => absurd st h⟩
  · rw [told.cap]; exact dropCurrent_cur s
  · rw [SegmentOnly] at only
    rw [told.cap, only]

theorem captureRun_toggled (h : s.cap.runState = .stopped) : Toggled s (captureRun s).1 := by
  rw [captureRun_stopped h]
  cases hr : canResume s with
  | true =>
    rw [if_pos rfl]
    have told := offerRunState_told (stateForTarget (resumed s)) (resumed s)
    have only : SegmentOnly (clearFail s) (resumed s) := beginSegment_segmentOnly _ _ _
    have time := only.timestamp
    rw [SegmentOnly] at only
    refine ⟨told.trig ▸ time, by rw [told.runView, told.cap], fun ne => absurd h ne, fun _ => ⟨?_, ?_, fun _ => ⟨?_, ?_⟩,
      fun no => absurd (hr.symm.trans no) (by decide)⟩⟩
    · rw [told.cap, only]; rfl
    · rw [told.cap]; exact stateForTarget_cases _
    · rw [told.cap, only]; rfl
    · rw [told.cap, only]; rfl
  | false =>
    rw [if_neg (by decide)]
    have told := offerRunState_told (stateForTarget (startCapture (clearFail s))) (startCapture (clearFail s))
    refine ⟨?_, by rw [told.runView, told.cap], fun ne => absurd h ne, fun _ => ⟨?_, ?_,
      fun yes => absurd (hr.symm.trans yes) (by decide), fun _ => ?_⟩⟩
    · rw [told.trig, startCapture_timestamp]; rfl
    · rw [told.cap]; exact startCapture_failLatch _
    · rw [told.cap]; exact stateForTarget_cases _
    · exact newCapture_of_told told rfl

theorem toggleRun_toggled (s : State) : Toggled s (toggleRun s) := by
  unfold toggleRun; split
  next h => exact captureRun_toggled h
  next h => exact captureStop_toggled h

/-- What Single does to the capture controller and the rasterizer's view (R85). -/
structure Singled (s t : State) : Prop where
  timestamp : t.trig.timestamp = s.trig.timestamp
  failLatch : t.cap.failLatch = false
  runState : t.cap.runState = .sequence
  runView : t.ras.runView = .sequence
  running : s.cap.runState = .running →
    t.cap.capNo = s.cap.capNo ∧ t.cap.desc = s.cap.desc.map fun d => { d with n := 1 }
  starts : s.cap.runState ≠ .running → NewCapture s t

theorem captureSingle_singled (s : State) : Singled s (captureSingle s) := by
  by_cases h : s.cap.runState = .running
  · have told := captureSingle_running h
    exact ⟨by rw [told.trig]; rfl, by rw [told.cap]; rfl, by rw [told.cap], told.runView,
      fun _ => by rw [told.cap]; exact ⟨rfl, rfl⟩, fun ne => absurd h ne⟩
  · have told := captureSingle_starts h
    refine ⟨?_, ?_, by rw [told.cap], told.runView, fun run => absurd run h, fun _ => ?_⟩
    · rw [told.trig, startCapture_timestamp, (dropCurrent_segmentOnly _).timestamp, beforeSingle_trig]
    · rw [told.cap]
      show (startCapture _).cap.failLatch = false
      rw [startCapture_failLatch, (dropCurrent_cap _).1, beforeSingle_cap]; rfl
    · exact newCapture_of_told told (by rw [(dropCurrent_cap _).2, beforeSingle_cap]; rfl)

/-- A clear asked for by the host or by a key (R135). -/
theorem requestClear_eq (s : State) : requestClear s = { s with ras := { s.ras with
    pendingClear := true, redraw := s.ras.redraw || decide (s.ras.runView = .stopped) } } := rfl

/-- Settles O38: the clears by `requestClear_eq`, the keys by what the toggle and Single do to the capture. -/
theorem keysAndClearPersistAct : Obligations.KeysAndClearPersistAct := by
  refine ⟨fun r s ras hras => ⟨fun hr => ?_, fun n hp hn => ?_⟩, fun s rest hp => ⟨fun hq => ?_, fun hq => ?_⟩⟩
  · have arm : exec .clearPersist s = dispatchCommand 0x1E serveClearPersist s := rfl
    rw [arm, dispatch_replied hr (u := requestClear (taken s)) (rep := doneReply r []) rfl rfl, hras]; rfl
  · have run : exec .keyClearPersist s = .next (takeKeyClear s) := command_powered takeKeyClear hp
    rw [run, hras]
    simp [takeKeyClear, hn, requestClear_eq]
  · have run : exec .runStopToggle s = .next (takeCaptureKey .runStop toggleRun s) := command_powered _ hp
    have did := toggleRun_toggled (withCaptureKeys rest s)
    obtain ⟨frame, keys, replies⟩ := captureKey_frame (toggleRun_effectOnly _) did.timestamp
    exact ⟨_, run.trans (by rw [takeCaptureKey_oldest _ hq]), frame, keys, replies, did.runView, did.stops, did.runs⟩
  · have run : exec .keySingle s = .next (takeCaptureKey .single captureSingle s) := command_powered _ hp
    have did := captureSingle_singled (withCaptureKeys rest s)
    obtain ⟨frame, keys, replies⟩ := captureKey_frame (captureSingle_effectOnly _) did.timestamp
    exact ⟨_, run.trans (by rw [takeCaptureKey_oldest _ hq]), frame, keys, replies, did.failLatch, did.runState,
      did.runView, did.running, did.starts⟩

end Sys2Proof.Machine.FrontPanel
end

section
/-! The trigger engine's requests and what a stop makes of the segment in flight (R63, R75, R84, R90, R91). -/

namespace Sys2Proof.Machine.TriggerEngine

open FrontPanel

variable {r : Request} {s u : State} {serve : Request → State → State} {kind : Byte} {c : CurSegment} {d : Descriptor}

/-! ## The link around an answer (R199, R200, R202) -/

@[simp] theorem beginHandover_replies (l : Link) : (beginHandover l).replies = l.replies := by
  unfold beginHandover; split <;> rfl

@[simp] theorem beginHandover_notices (l : Link) : (beginHandover l).notices = l.notices := by
  unfold beginHandover; split <;> rfl

/-- What an offer makes of the notice queue depends on nothing else of the link (R202). -/
theorem offerLink_notices_congr (n : Notice) {l k : Link} (h : l.notices = k.notices) :
    (offerLink n l).notices = (offerLink n k).notices := by
  unfold offerLink
  rw [h]
  cases mergeInto n k.notices with
  | some qs => rfl
  | none => dsimp only; split <;> rfl

/-- A request whose owner acts within EffectOnly and then answers: what it did stands, the reply is the queue's last,
and the notices are those it offered. -/
theorem dispatch_effect {rep : Reply} (h : InHandover kind r s) (hu : EffectOnly (taken s) u)
    (hs : serve r (taken s) = pushReply rep u) :
    ∃ l, dispatchCommand kind serve s = .next { u with link := l } ∧ l.replies = s.link.replies ++ [rep] ∧
      l.notices = u.link.notices := by
  have replies : u.link.replies = s.link.replies := by rw [EffectOnly] at hu; rw [hu]; rfl
  refine ⟨beginHandover (pushReply rep u).link, ?_, ?_, ?_⟩
  · rw [dispatch_inHandover h, hs]; rfl
  · simp [replies]
  · simp

/-! ## ForceTrigger (R63) -/

/-- Settles O27: the force by the arm view; in Armed an acceptance, after which PostFill may end. -/
theorem forceTriggerActsByArmView : Obligations.ForceTriggerActsByArmView := by
  intro r s hr
  have arm : exec .forceTrigger s = dispatchCommand 0x18 serveForceTrigger s := rfl
  refine ⟨fun hi => ?_, fun hpre => ?_, fun c d q written ha hc hph hd hq hw => ?_⟩
  · have served : serveForceTrigger r (taken s) = pushReply (doneReply r [2]) (taken s) := by
      rw [serveForceTrigger, takeForce_idle (s := taken s) hi]; rfl
    exact arm.trans (dispatch_answered hr served)
  · have served : serveForceTrigger r (taken s) = pushReply (doneReply r [1])
        { taken s with trig := { s.trig with pendingForce := true } } := by
      rw [serveForceTrigger, takeForce_preFill (s := taken s) hpre]; rfl
    exact arm.trans (dispatch_replied hr (u := { taken s with trig := { s.trig with pendingForce := true } }) rfl served)
  · have served : serveForceTrigger r (taken s) = pushReply (doneReply r [0]) (forceAccept (taken s)) := by
      rw [serveForceTrigger, takeForce_armed (s := taken s) ha]; rfl
    refine ⟨fun hlt => ?_, fun _ => ?_⟩
    · rw [forceAccept_armed (s := taken s) hc hph hd hq hw hlt] at served
      exact arm.trans (dispatch_replied hr (u := accepted false written c d q (taken s)) rfl served)
    · obtain ⟨l, run, replies, -⟩ := dispatch_effect hr (forceAccept_effectOnly _) served
      exact ⟨_, arm.trans run, replies⟩

/-! ## The segment dropped (R52, R75, R84) -/

/-- A channel's damage is noted in its segment's record, whose identity stands (R76). -/
theorem pushBurst_idents (b : CapBurst) (s : State) :
    (pushBurst b s).cap.table.map (·.ident) = s.cap.table.map (·.ident) := by
  unfold pushBurst; split
  · rfl
  · simp only [updateRecord, List.map_map]
    refine List.map_congr_left fun x _ => ?_
    simp only [Function.comp]
    split <;> [(split <;> rfl); rfl]

theorem flushChannel_idents (s : State) (ch : Nat) :
    (flushChannel s ch).cap.table.map (·.ident) = s.cap.table.map (·.ident) := by
  unfold flushChannel; split
  · exact pushBurst_idents _ _
  · rfl

/-- The bursts that leave assembly remove no record and begin none. -/
theorem flushAssembly_idents (s : State) :
    (flushAssembly s).cap.table.map (·.ident) = s.cap.table.map (·.ident) := by
  simp only [flushAssembly, List.foldl, flushChannel_idents]

/-- What touches the capture controller alone leaves the engine. -/
theorem trig_of_captureOnly {t : State} (h : CaptureOnly s t) : t.trig = s.trig := by rw [CaptureOnly] at h; rw [h]

theorem dropCurrent_of_none (hc : s.cap.cur = none) : dropCurrent s = s := by simp only [dropCurrent, hc]

/-- A drop removes the record of the segment in flight and no other (R84). -/
theorem dropCurrent_idents (hc : s.cap.cur = some c) : (dropCurrent s).cap.table.map (·.ident) =
    (s.cap.table.map (·.ident)).filter fun i => i != c.ident := by
  rw [← flushAssembly_idents s, List.filter_map]
  simp only [dropCurrent, hc]
  split <;> rfl

/-- The engine is told of a drop in PreFill or Armed (R52, R61, R64). -/
theorem dropCurrent_trig (hc : s.cap.cur = some c) : (dropCurrent s).trig =
    if c.phase = .preFill ∨ c.phase = .armed then { s.trig with arm := .idle, auto := none, pendingForce := false }
    else s.trig := by
  have flushed := trig_of_captureOnly (flushAssembly_captureOnly s)
  simp only [dropCurrent, hc]
  split
  · simp only [tellDropped_trig, flushed]
  · exact flushed

/-- A drop leaves the Triggered pulse alone. -/
theorem dropCurrent_panel (s : State) : (dropCurrent s).panel = s.panel := by
  have flushed : (flushAssembly s).panel = s.panel := by
    have only := flushAssembly_captureOnly s
    rw [CaptureOnly] at only; rw [only]
  unfold dropCurrent; split
  · rfl
  · dsimp only; split <;> exact flushed

/-- Stop on a part that is not stopped: the drop, the run state told, and AcqDone of a sequence that was finishing
(R84, R90, R91; their order: log 12). -/
theorem captureStop_eq (h : s.cap.runState ≠ .stopped) : captureStop s =
    if s.cap.runState = .finishing then offerAcqDone 2 (offerRunState (setRunState .stopped (dropCurrent s)))
    else offerRunState (setRunState .stopped (dropCurrent s)) := by
  unfold captureStop; split <;> simp_all

/-- The notices that Stop offers (R90, R91; their order: log 12). -/
theorem captureStop_notices (h : s.cap.runState ≠ .stopped) : ∀ l,
    l = offerLink (.runState .stopped s.cap.capNo (finishedCount (captureStop s))) s.link →
    (captureStop s).link = if s.cap.runState = .finishing then
      offerLink (.acqDone s.cap.capNo 2 (finishedCount (captureStop s))
        ((captureStop s).cap.table.filter fun x => x.state == .damaged).length) l else l := by
  rintro _ rfl
  have drop := dropCurrent_segmentOnly s
  rw [SegmentOnly] at drop
  have link : (dropCurrent s).link = s.link := by rw [drop]
  have capNo : (dropCurrent s).cap.capNo = s.cap.capNo := (dropCurrent_cap s).2
  rw [captureStop_eq h]
  split
  all_goals rw [← link, ← capNo]; rfl

/-- Stop changes nothing of the rasterizer but its run state view (R84, R90). -/
theorem captureStop_ras (h : s.cap.runState ≠ .stopped) :
    (captureStop s).ras = { s.ras with runView := .stopped } := by
  have drop := dropCurrent_segmentOnly s
  rw [SegmentOnly] at drop
  have ras : (dropCurrent s).ras = s.ras := by rw [drop]
  rw [captureStop_eq h, ← ras]
  split <;> rfl

theorem captureStop_panel (h : s.cap.runState ≠ .stopped) : (captureStop s).panel = s.panel := by
  rw [captureStop_eq h, ← dropCurrent_panel s]
  split <;> rfl

/-- Settles O34: what Stop does is the drop of the segment in flight, with the run state told. -/
theorem stopDropsTheSegment : Obligations.StopDropsTheSegment := by
  intro r s hr hrun
  have arm : exec .stop s = dispatchCommand 0x1A (reachCapture serveStop) s := rfl
  have served : reachCapture serveStop r (taken s) =
      pushReply (doneReply r [BitVec.ofNat 8 (runStateCode s.cap.runState)]) (captureStop (taken s)) := by
    rw [reachCapture, if_pos (show (taken s).cap.runTaken = true from hrun)]; rfl
  refine ⟨fun hst => ?_, fun hst => ?_⟩
  · have idle : captureStop (taken s) = taken s := by
      rw [captureStop, show (taken s).cap.runState = .stopped from hst]
    rw [idle, hst] at served
    exact arm.trans (dispatch_answered hr served)
  · have running : (taken s).cap.runState ≠ .stopped := hst
    have told := captureStop_told running
    have drop := dropCurrent_segmentOnly (taken s)
    have frame := runControlFrame_of_effect (captureStop_effectOnly (taken s)) (by rw [told.trig, drop.timestamp])
    have kept : (captureStop (taken s)).cap.desc = s.cap.desc ∧ (captureStop (taken s)).cap.capNo = s.cap.capNo ∧
        (captureStop (taken s)).cap.serial = s.cap.serial := by
      rw [SegmentOnly] at drop
      rw [told.cap, drop]
      exact ⟨rfl, rfl, rfl⟩
    obtain ⟨desc, capNo, serial⟩ := kept
    obtain ⟨l, run, replies, notices⟩ := dispatch_effect hr (captureStop_effectOnly _) served
    refine ⟨_, arm.trans run, frame, captureStop_panel running, ?_, ?_, captureStop_ras running, ?_, desc, capNo, serial,
      fun hc => ⟨?_, ?_⟩, fun c hc => ⟨?_, ?_⟩, ?_⟩
    · rw [replies]; cases s.cap.runState <;> rfl
    · exact congrArg Capture.runState told.cap
    · exact (congrArg Capture.cur told.cap).trans (dropCurrent_cur _)
    · exact (congrArg Capture.table told.cap).trans (by rw [dropCurrent_of_none (s := taken s) hc]; rfl)
    · exact told.trig.trans (by rw [dropCurrent_of_none (s := taken s) hc]; rfl)
    · exact (congrArg (fun k => k.table.map (·.ident)) told.cap).trans (dropCurrent_idents (s := taken s) hc)
    · exact told.trig.trans (dropCurrent_trig (s := taken s) hc)
    · rintro _ rfl
      rw [notices, captureStop_notices running _ rfl]
      have first (n : Notice) : (offerLink n (taken s).link).notices = (offerLink n s.link).notices :=
        offerLink_notices_congr n rfl
      show (if s.cap.runState = .finishing then _ else _ : Link).notices = _
      split
      · exact offerLink_notices_congr _ (first _)
      · exact first _

end Sys2Proof.Machine.TriggerEngine
end

section
/-! What a tick keeps of the engine and the capture (R50, R51, R69, R71). -/

namespace Sys2Proof.Machine.TriggerEngine

open FrontPanel

variable {s t u : State} {c : CurSegment} {d : Descriptor}

/-! ## What no part of a tick changes once the sample is taken -/

/-- The timestamp counter, the external input's level and the capture's descriptor and number are as they were, and
the watermark has at most been disarmed. -/
structure KeepsCapture (s t : State) : Prop where
  timestamp : t.trig.timestamp = s.trig.timestamp
  extLevel : t.trig.extLevel = s.trig.extLevel
  capNo : t.cap.capNo = s.cap.capNo
  desc : t.cap.desc = s.cap.desc
  watermark : t.cap.watermark ≤ s.cap.watermark

theorem KeepsCapture.refl (s : State) : KeepsCapture s s := ⟨rfl, rfl, rfl, rfl, Nat.le_refl _⟩

theorem KeepsCapture.trans (h : KeepsCapture s t) (k : KeepsCapture t u) : KeepsCapture s u :=
  ⟨k.timestamp.trans h.timestamp, k.extLevel.trans h.extLevel, k.capNo.trans h.capNo, k.desc.trans h.desc,
    Nat.le_trans k.watermark h.watermark⟩

/-- What moves the segment alone keeps the capture, when it leaves the external input's level. -/
theorem keepsCapture_of_segmentOnly (h : SegmentOnly s t) (he : t.trig.extLevel = s.trig.extLevel) :
    KeepsCapture s t := by
  rw [SegmentOnly] at h
  refine ⟨?_, he, ?_, ?_, ?_⟩ <;> rw [h]

/-! ## The external input's level through the life of a segment (R53, R65) -/

@[simp] theorem acceptTrigger_extLevel (fire : Bool) (s : State) :
    (acceptTrigger fire s).trig.extLevel = s.trig.extLevel := by
  unfold acceptTrigger captureTrigger
  split <;> [(dsimp only; split <;> rfl); rfl]

theorem latchAtArmed_extLevel (q : TrigSettings) (g : Trigger) : (latchAtArmed q g).extLevel = g.extLevel := by
  unfold latchAtArmed; split <;> rfl

@[simp] theorem enterArmed_extLevel (c : CurSegment) (s : State) :
    (enterArmed c s).trig.extLevel = s.trig.extLevel := by
  unfold enterArmed; dsimp only; split
  · exact (acceptTrigger_extLevel _ _).trans (latchAtArmed_extLevel _ _)
  · exact latchAtArmed_extLevel _ _

theorem enterPreFill_extLevel (d : Descriptor) (c : CurSegment) (s : State) :
    (enterPreFill d c s).trig.extLevel = s.trig.extLevel := by
  unfold enterPreFill; dsimp only; split
  · exact enterArmed_extLevel _ _
  · rfl

theorem leaveHolding_extLevel (s : State) : (leaveHolding s).trig.extLevel = s.trig.extLevel := by
  unfold leaveHolding
  split <;> [(split <;> [exact enterPreFill_extLevel _ _ s; rfl]); rfl]

theorem beginSegment_extLevel (index buffer : Nat) (s : State) :
    (beginSegment index buffer s).trig.extLevel = s.trig.extLevel := leaveHolding_extLevel _

/-! ## Points, bursts and triggers (R59, R70, R74 to R76) -/

theorem acceptTrigger_keeps (fire : Bool) (s : State) : KeepsCapture s (acceptTrigger fire s) :=
  keepsCapture_of_segmentOnly (acceptTrigger_stays fire s).1 (acceptTrigger_extLevel fire s)

theorem setCur_keeps (c : CurSegment) (s : State) : KeepsCapture s (setCur c s) :=
  ⟨rfl, rfl, rfl, rfl, Nat.le_refl _⟩

theorem enterArmed_keeps (c : CurSegment) (s : State) : KeepsCapture s (enterArmed c s) :=
  (setCur_keeps c s).trans (keepsCapture_of_segmentOnly (enterArmed_stays c s).1 (enterArmed_extLevel c s))

theorem beginSegment_keeps (index buffer : Nat) (s : State) : KeepsCapture s (beginSegment index buffer s) :=
  keepsCapture_of_segmentOnly (beginSegment_segmentOnly index buffer s) (beginSegment_extLevel index buffer s)

theorem flushAssembly_keeps (s : State) : KeepsCapture s (flushAssembly s) :=
  keepsCapture_of_segmentOnly (flushAssembly_segmentOnly s)
    (congrArg Trigger.extLevel (trig_of_captureOnly (flushAssembly_captureOnly s)))

theorem putPoint_segmentOnly (d : Descriptor) (c : CurSegment) (ch : Nat) (bytes : List Byte) (s : State) :
    SegmentOnly s (putPoint d c ch bytes s) := by
  unfold putPoint; dsimp only; split
  · exact SegmentOnly.trans (t := setAssembly ch none s) rfl (pushBurst_segmentOnly _ _)
  · rfl

theorem putPoints_segmentOnly (d : Descriptor) (c : CurSegment) (groups : List Group) (s : State) :
    SegmentOnly s (putPoints d c groups s) := by
  unfold putPoints
  generalize d.channels = chs
  induction chs generalizing s with
  | nil => rfl
  | cons ch chs ih => exact (putPoint_segmentOnly d c ch _ s).trans (ih _)

theorem putPoints_keeps (d : Descriptor) (c : CurSegment) (groups : List Group) (s : State) :
    KeepsCapture s (putPoints d c groups s) :=
  keepsCapture_of_segmentOnly (putPoints_segmentOnly d c groups s)
    (congrArg Trigger.extLevel (trig_of_captureOnly (putPoints_captureOnly d c groups s)))

/-! ## Completion (R79 to R82, R93, R114) -/

theorem skipAll_keeps (serials : List Word32) (s : State) : KeepsCapture s (skipAll serials s) := by
  induction serials generalizing s with
  | nil => exact .refl s
  | cons n ns ih =>
    have first : KeepsCapture s (setMaskResult n .skipped s) := ⟨rfl, rfl, rfl, rfl, Nat.le_refl _⟩
    exact first.trans (ih _)

theorem appendDraw_keeps (serial : Word32) (s : State) : KeepsCapture s (appendDraw serial s) := by
  obtain ⟨timestamp, extLevel, capNo, desc, watermark⟩ :=
    skipAll_keeps (if s.ras.drawQueue.length < drawPlaces then [] else s.ras.drawQueue.take 1) s
  exact ⟨timestamp, extLevel, capNo, desc, watermark⟩

theorem checkWatermark_keeps (s : State) : KeepsCapture s (checkWatermark s) := by
  unfold checkWatermark; split
  · exact ⟨rfl, rfl, rfl, rfl, Nat.zero_le _⟩
  · exact .refl s

theorem finishSequence_keeps (complete : Bool) (s : State) : KeepsCapture s (finishSequence complete s) := by
  unfold finishSequence; split <;> exact ⟨rfl, rfl, rfl, rfl, Nat.le_refl _⟩

/-- Records that leave the table leave the rest of the capture. -/
theorem withTable_keeps (table : List SegRecord) (s : State) :
    KeepsCapture s { s with cap := { s.cap with table := table } } := ⟨rfl, rfl, rfl, rfl, Nat.le_refl _⟩

theorem afterCompletion_keeps (c : CurSegment) (d : Descriptor) (complete : Bool) (s : State) :
    KeepsCapture s (afterCompletion c d complete s) := by
  unfold afterCompletion; dsimp only; split
  · exact (withTable_keeps _ s).trans (beginSegment_keeps _ _ _)
  · split <;> split
    · exact (withTable_keeps _ s).trans (beginSegment_keeps _ _ _)
    · exact (withTable_keeps _ s).trans (finishSequence_keeps _ _)
    · exact beginSegment_keeps _ _ s
    · exact finishSequence_keeps _ s
  all_goals exact .refl s

theorem completeSegment_keeps (s : State) : KeepsCapture s (completeSegment s) := by
  unfold completeSegment; split
  next c d _ _ =>
    dsimp only
    refine KeepsCapture.trans ?_ ((afterCompletion_keeps c d _ _).trans (checkWatermark_keeps _))
    have finished : KeepsCapture s { s with cap := { s.cap with
        serial := s.cap.serial + 1, cur := none
        table := updateRecord c.ident (fun r => { r with
          serial := some (s.cap.serial + 1)
          state := if (damagedOf s c.ident).isEmpty then .complete else .damaged }) s.cap.table } } :=
      ⟨rfl, rfl, rfl, rfl, Nat.le_refl _⟩
    refine finished.trans ?_
    split
    · exact appendDraw_keeps _ _
    · exact ⟨rfl, rfl, rfl, rfl, Nat.le_refl _⟩
  next => exact .refl s

theorem checkDrained_keeps (s : State) : KeepsCapture s (checkDrained s) := by
  unfold checkDrained
  split <;> [(split <;> [exact completeSegment_keeps s; exact .refl s]); exact .refl s]

theorem checkPostFill_keeps (s : State) : KeepsCapture s (checkPostFill s) := by
  unfold checkPostFill; split
  · split
    · exact ((setCur_keeps _ s).trans (flushAssembly_keeps _)).trans (checkDrained_keeps _)
    · exact .refl s
  · exact .refl s

/-! ## The tick (R50, R51, R56, R69, R71) -/

theorem formPoint_keeps (d : Descriptor) (c : CurSegment) (groups : List Group) (s : State) :
    KeepsCapture s (formPoint d c groups s) := by
  unfold formPoint; dsimp only
  refine (putPoints_keeps d c groups s).trans ?_
  split
  · split <;> [exact enterArmed_keeps _ _; exact setCur_keeps _ _]
  · exact setCur_keeps _ _
  · exact (setCur_keeps _ _).trans (checkPostFill_keeps _)
  all_goals exact .refl _

theorem captureTick_keeps (adc : List Nat) (s : State) : KeepsCapture s (captureTick adc s) := by
  unfold captureTick; split
  · split
    · dsimp only; split
      · exact setCur_keeps _ _
      · exact formPoint_keeps _ _ _ _
    · exact .refl s
  · exact .refl s

theorem fireTrigger_keeps (fire : Bool) (s : State) : KeepsCapture s (fireTrigger fire s) := by
  unfold fireTrigger; split <;> [exact acceptTrigger_keeps true s; exact .refl s]

theorem fireTrigger_effectOnly (fire : Bool) (s : State) : EffectOnly s (fireTrigger fire s) := by
  unfold fireTrigger; split <;> [exact (acceptTrigger_acquireOnly true s).effect; rfl]

/-- The codes of the four channels that a tick's sample brings, by the input (R51, R71). -/
def tickCodes (input : InputSel) (adc : List Nat) (now : Tick) : List Nat :=
  match input with
  | .adc => adc
  | .pattern => patternCodes now

/-- The external input as a tick's sample sees it: low under Pattern (R56, R71). -/
def tickExt (input : InputSel) (ext : Bool) : Bool := decide (input = .adc) && ext

/-- What a tick's sample makes of the engine, and whether it is a trigger fire. -/
def tickSample (adc : List Nat) (ext : Bool) (s : State) : Trigger × Bool :=
  sampleEngine (tickCodes s.cap.input adc (s.trig.timestamp + 1)) (tickExt s.cap.input ext)
    { s.trig with timestamp := s.trig.timestamp + 1, extLevel := tickExt s.cap.input s.trig.extLevel }

/-- A sample advances the counter, and sets the external input's level (R50, R56). -/
theorem tickSample_levels (adc : List Nat) (ext : Bool) (s : State) :
    (tickSample adc ext s).1.timestamp = s.trig.timestamp + 1 ∧
      (tickSample adc ext s).1.extLevel = tickExt s.cap.input ext := by
  unfold tickSample sampleEngine; split
  · exact ⟨rfl, rfl⟩
  · dsimp only; split <;> exact ⟨rfl, rfl⟩

/-- The state once the external pin has been moved and the engine has taken the sample. -/
def sampled (ext : Bool) (g : Trigger) (s : State) : State := { s with pins := { s.pins with ext := ext }, trig := g }

/-- A tick is the engine's sample, the trigger's acceptance if it fires, and the capture controller's codes. -/
theorem fullRateTick_eq (adc : List Nat) (ext : Bool) (s : State) : fullRateTick adc ext s =
    captureTick adc (fireTrigger (tickSample adc ext s).2 (sampled ext (tickSample adc ext s).1 s)) := by
  simp only [fullRateTick, beforeSample_eq, tickSample, sourceStream, tickCodes, tickExt, sampled]
  cases s.cap.input <;> rfl

theorem tick_run {c1 c2 c3 c4 : Byte} {ext : Bool} (hp : s.powered = true) : exec (.tick c1 c2 c3 c4 ext) s =
    .next (fullRateTick [c1.toNat, c2.toNat, c3.toNat, c4.toNat] ext s) := command_powered (fullRateTick _ ext) hp

theorem fullRateTick_effectOnly (adc : List Nat) (ext : Bool) (s : State) :
    EffectOnly (sampled ext (tickSample adc ext s).1 s) (fullRateTick adc ext s) := by
  rw [fullRateTick_eq]
  exact (fireTrigger_effectOnly _ _).trans (captureTick_effectOnly _ _)

theorem fullRateTick_keeps (adc : List Nat) (ext : Bool) (s : State) :
    KeepsCapture (sampled ext (tickSample adc ext s).1 s) (fullRateTick adc ext s) := by
  rw [fullRateTick_eq]
  exact (fireTrigger_keeps _ _).trans (captureTick_keeps _ _)

/-- With no settings in use a sample moves the counter and the external input's level alone. -/
theorem tickSample_unset {adc : List Nat} {ext : Bool} (hq : s.trig.settings = none) : tickSample adc ext s =
    ({ s.trig with timestamp := s.trig.timestamp + 1, extLevel := tickExt s.cap.input ext }, false) := by
  simp only [tickSample, sampleEngine, hq]

/-- A segment in Holding or with its last point written takes no codes (R69). -/
theorem captureTick_idle {adc : List Nat}
    (h : ∀ c, s.cap.cur = some c → c.phase = .holding ∨ c.phase = .draining) : captureTick adc s = s := by
  unfold captureTick; split
  next c d hc _ =>
    have idle : formsPoints c.phase = false := by rcases h c hc with hph | hph <;> (rw [hph]; rfl)
    rw [if_neg (by simp [idle])]
  next => rfl

theorem fireTrigger_false (s : State) : fireTrigger false s = s := by simp [fireTrigger]

/-- Settles O29: a tick is a sample, after which nothing moves the counter, the external input's level or the
descriptor. -/
theorem tickAdvancesTimestamp : Obligations.TickAdvancesTimestamp := by
  intro s c1 c2 c3 c4 ext hp
  have low : tickExt s.cap.input ext = if s.cap.input = .adc then ext else false := by
    unfold tickExt; split <;> simp_all
  refine ⟨⟨_, tick_run hp, ?_⟩, fun hq hidle => ?_⟩
  · obtain ⟨stamp, level⟩ := tickSample_levels [c1.toNat, c2.toNat, c3.toNat, c4.toNat] ext s
    obtain ⟨kstamp, klevel, capNo, desc, watermark⟩ :=
      fullRateTick_keeps [c1.toNat, c2.toNat, c3.toNat, c4.toNat] ext s
    have effect := fullRateTick_effectOnly [c1.toNat, c2.toNat, c3.toNat, c4.toNat] ext s
    refine ⟨kstamp.trans stamp, (klevel.trans level).trans low, ?_⟩
    rw [EffectOnly] at effect
    refine ⟨?_, ?_, ?_, ?_, ?_, ?_, ?_, ?_, ?_, ?_, ?_, capNo, desc, watermark⟩ <;> (rw [effect]; rfl)
  · rw [tick_run hp, fullRateTick_eq, tickSample_unset hq, fireTrigger_false,
      captureTick_idle (s := sampled ext _ s) hidle, low]
    rfl

end Sys2Proof.Machine.TriggerEngine
end

section
/-! The detectors, the widths of pulses and the acceptance of a fire at its own tick (R54 to R59, R71, R74). -/

namespace Sys2Proof.Machine.TriggerEngine

open FrontPanel

variable {s u : State} {c : CurSegment} {d : Descriptor} {q : TrigSettings} {g : Trigger} {code : Int}
  {now : Tick} {rising falling ext : Bool} {codes adc : List Nat} {pulse : Option (Tick × Polarity)}

/-! ## The two detectors (R54, R56) -/

/-- The type and the slope are values of their parameters. -/
structure KnownTrigger (q : TrigSettings) : Prop where
  type : q.type = 0 ∨ q.type = 1
  slope : q.slope = 0 ∨ q.slope = 1 ∨ q.slope = 2

theorem risingRuns_eq (h : KnownTrigger q) :
    risingRuns q = (q.source != 4 && (q.type == 1 || q.slope != 1)) := by
  rcases h.slope with hs | hs | hs <;> simp [risingRuns, sourceExt, hs]

theorem fallingRuns_eq (h : KnownTrigger q) :
    fallingRuns q = (q.source != 4 && (q.type == 1 || q.slope != 0)) := by
  rcases h.slope with hs | hs | hs <;> simp [fallingRuns, sourceExt, hs]

/-- The rising detector fires when it runs, is primed and finds the level reached; else it stays primed or is primed. -/
theorem risingStep_eq (q : TrigSettings) (code : Int) (primed : Bool) : risingStep q code primed =
    (risingRuns q && !(primed && decide (q.level ≤ code)) && (primed || decide (code ≤ max 0 (q.level - q.hyst))),
      risingRuns q && primed && decide (q.level ≤ code)) := by
  unfold risingStep
  cases risingRuns q with
  | false => rfl
  | true =>
    cases primed with
    | false => cases decide (code ≤ max 0 (q.level - q.hyst)) <;> rfl
    | true => cases decide (q.level ≤ code) <;> rfl

theorem fallingStep_eq (q : TrigSettings) (code : Int) (primed : Bool) : fallingStep q code primed =
    (fallingRuns q && !(primed && decide (code ≤ q.level)) && (primed || decide (min 255 (q.level + q.hyst) ≤ code)),
      fallingRuns q && primed && decide (code ≤ q.level)) := by
  unfold fallingStep
  cases fallingRuns q with
  | false => rfl
  | true =>
    cases primed with
    | false => cases decide (min 255 (q.level + q.hyst) ≤ code) <;> rfl
    | true => cases decide (code ≤ q.level) <;> rfl

/-- A rising fire by the source: an edge of the external input, or the rising detector's. -/
theorem risingFire_eq (h : KnownTrigger q) (primed was : Bool) :
    (if q.source = sourceExt then !was && ext else (risingStep q code primed).2) = risingFire q primed was ext code := by
  rw [risingStep_eq, risingRuns_eq h, risingFire, sourceExt]
  by_cases hs : q.source = 4
  · simp [hs]
  · simp [hs, bne_iff_ne.2 hs]

theorem fallingFire_eq (h : KnownTrigger q) (primed was : Bool) :
    (if q.source = sourceExt then was && !ext else (fallingStep q code primed).2) = fallingFire q primed was ext code := by
  rw [fallingStep_eq, fallingRuns_eq h, fallingFire, sourceExt]
  by_cases hs : q.source = 4
  · simp [hs]
  · simp [hs, bne_iff_ne.2 hs]

/-- The rising detector's primed flag after a sample. -/
theorem risingPrimed_eq (h : KnownTrigger q) (primed was : Bool) : (risingStep q code primed).1 =
    (q.source != 4 && (q.type == 1 || q.slope != 1) && !risingFire q primed was ext code &&
      (primed || decide (code ≤ max 0 (q.level - q.hyst)))) := by
  rw [risingStep_eq, risingRuns_eq h, risingFire]
  by_cases hs : q.source = 4
  · simp [hs]
  · cases q.type == 1 || q.slope != 1 <;> simp [hs]

theorem fallingPrimed_eq (h : KnownTrigger q) (primed was : Bool) : (fallingStep q code primed).1 =
    (q.source != 4 && (q.type == 1 || q.slope != 0) && !fallingFire q primed was ext code &&
      (primed || decide (min 255 (q.level + q.hyst) ≤ code))) := by
  rw [fallingStep_eq, fallingRuns_eq h, fallingFire]
  by_cases hs : q.source = 4
  · simp [hs]
  · cases q.type == 1 || q.slope != 0 <;> simp [hs]

/-! ## The widths of pulses (R57) -/

theorem measures_positive (h : KnownTrigger q) : measures q .positive = (q.slope != 1) := by
  rcases h.slope with hs | hs | hs <;> simp [measures, hs]

theorem measures_negative (h : KnownTrigger q) : measures q .negative = (q.slope != 0) := by
  rcases h.slope with hs | hs | hs <;> simp [measures, hs]

/-- A rising fire closes a negative pulse and opens a positive one. -/
theorem widthStep_rising (h : KnownTrigger q) (ht : q.type ≠ 0) : widthStep q now true pulse =
    (pulseAfter q now true false pulse, triggerFire q pulse now true false) := by
  simp only [widthStep, openedBy, closedBy, if_true, measures_positive h, pulseAfter, triggerFire, if_neg ht]
  rcases pulse with _ | ⟨start, _ | _⟩ <;> cases q.slope != 1 <;> simp [widthMeets, Option.filter]

/-- A falling fire closes a positive pulse and opens a negative one. -/
theorem widthStep_falling (h : KnownTrigger q) (ht : q.type ≠ 0) : widthStep q now false pulse =
    (pulseAfter q now false true pulse, triggerFire q pulse now false true) := by
  simp only [widthStep, openedBy, closedBy, Bool.false_eq_true, if_false, measures_negative h, pulseAfter,
    triggerFire, if_neg ht]
  rcases pulse with _ | ⟨start, _ | _⟩ <;> cases q.slope != 0 <;> simp [widthMeets, Option.filter]

/-- Without a fire the pulse start stands and there is no trigger fire. -/
theorem pulseAfter_none (q : TrigSettings) (now : Tick) (pulse : Option (Tick × Polarity)) :
    pulseAfter q now false false pulse = pulse ∧ triggerFire q pulse now false false = false := by
  rcases pulse with _ | ⟨start, p⟩ <;> simp [pulseAfter, triggerFire]

/-- The width detection of a sample, which gives one fire at most. -/
theorem widthFires_eq (h : KnownTrigger q) (ht : q.type ≠ 0) (once : (rising && falling) = false) :
    widthFire q now false falling (widthFire q now true rising (pulse, false)) =
      (pulseAfter q now rising falling pulse, triggerFire q pulse now rising falling) := by
  match rising, falling, once with
  | false, false, _ => obtain ⟨kept, no⟩ := pulseAfter_none q now pulse; rw [kept, no]; rfl
  | true, false, _ => simp only [widthFire, if_true, widthStep_rising h ht]; simp
  | false, true, _ => simp only [widthFire, if_true, widthStep_falling h ht]; simp

/-! ## A sample (R51 to R57) -/

/-- What a sample makes of the engine, by the fires it gives, and whether it is a trigger fire. -/
theorem sampleEngine_eq (hq : g.settings = some q) (h : KnownTrigger q)
    (hcode : code = ((codes.getD q.source.toNat 0 : Nat) : Int))
    (hr : rising = risingFire q g.risePrimed g.extLevel ext code)
    (hf : falling = fallingFire q g.fallPrimed g.extLevel ext code) (once : (rising && falling) = false) :
    sampleEngine codes ext g =
      (engineAfter q g.timestamp ext rising falling code g, triggerFire q g.pulse g.timestamp rising falling) := by
  unfold sampleEngine
  simp only [hq]
  rw [← hcode, risingFire_eq h, fallingFire_eq h, risingPrimed_eq h g.risePrimed g.extLevel (ext := ext),
    fallingPrimed_eq h g.fallPrimed g.extLevel (ext := ext), ← hr, ← hf]
  by_cases ht : q.type = 0
  · simp only [if_pos ht, engineAfter, triggerFire, hq]
  · simp only [if_neg ht, widthFires_eq h ht once, engineAfter, hq]

/-- The sample of a tick (R50, R51, R56, R71). -/
theorem tickSample_eq (hq : s.trig.settings = some q) (h : KnownTrigger q) (hnow : now = s.trig.timestamp + 1)
    (hcode : code = (((tickCodes s.cap.input adc now).getD q.source.toNat 0 : Nat) : Int))
    (hr : rising = risingFire q s.trig.risePrimed (tickExt s.cap.input s.trig.extLevel) (tickExt s.cap.input ext) code)
    (hf : falling = fallingFire q s.trig.fallPrimed (tickExt s.cap.input s.trig.extLevel) (tickExt s.cap.input ext) code)
    (once : (rising && falling) = false) : tickSample adc ext s =
      (engineAfter q now (tickExt s.cap.input ext) rising falling code s.trig,
        triggerFire q s.trig.pulse now rising falling) := by
  subst hnow
  exact sampleEngine_eq (g := { s.trig with
    timestamp := s.trig.timestamp + 1, extLevel := tickExt s.cap.input s.trig.extLevel }) hq h hcode hr hf once

/-! ## Acceptance at the fire's own tick (R58, R59, R74) -/

/-- A fire accepted in Armed: the forming point is the trigger point. -/
theorem acceptTrigger_fire (hc : s.cap.cur = some c) (hph : c.phase = .armed) (hd : s.cap.desc = some d)
    (hq : s.trig.settings = some q) : acceptTrigger true s = accepted true false c d q s := by
  rw [acceptTrigger, engineAccept_eq hq]
  simp only [captureTrigger, accepted, hc, hd, hph, if_true]
  rfl

theorem fireTrigger_refused {fire : Bool}
    (h : fire = false ∨ s.trig.arm ≠ .armed ∨ s.trig.holdoff ≠ none) : fireTrigger fire s = s := by
  unfold fireTrigger
  exact if_neg (by simpa only [not_and_or, Bool.not_eq_true] using h)

theorem fireTrigger_accepted (ha : s.trig.arm = .armed) (hh : s.trig.holdoff = none) (hc : s.cap.cur = some c)
    (hph : c.phase = .armed) (hd : s.cap.desc = some d) (hq : s.trig.settings = some q) :
    fireTrigger true s = accepted true false c d q s := by
  rw [fireTrigger, if_pos ⟨rfl, ha, hh⟩, acceptTrigger_fire hc hph hd hq]

/-- A tick's codes join the forming point while its group is not full (R69). -/
theorem captureTick_forming (hc : s.cap.cur = some c) (hph : formsPoints c.phase = true) (hd : s.cap.desc = some d)
    (hlt : c.formed + 1 < d.d) : captureTick adc s = setCur { c with
      formed := c.formed + 1
      groups := addCodes c.formed c.groups (tickCodes d.input adc s.trig.timestamp) } s := by
  simp only [captureTick, hc, hd, hph, if_true, if_pos hlt]
  cases d.input <;> rfl

/-- A fire accepted at its tick, whose codes then join the trigger point. -/
theorem captureTick_accepted (ha : s.trig.arm = .armed) (hh : s.trig.holdoff = none) (hc : s.cap.cur = some c)
    (hph : c.phase = .armed) (hd : s.cap.desc = some d) (hq : s.trig.settings = some q) (hlt : c.formed + 1 < d.d) :
    captureTick adc (fireTrigger true s) = setCur { c with
      phase := .postFill, remaining := d.lEff - d.t, formed := c.formed + 1
      groups := addCodes c.formed c.groups (tickCodes d.input adc s.trig.timestamp) } (accepted true false c d q s) := by
  rw [fireTrigger_accepted ha hh hc hph hd hq]
  exact captureTick_forming (s := accepted true false c d q s)
    (c := { c with phase := .postFill, remaining := d.lEff - d.t }) rfl rfl hd hlt

/-- A fire that is not accepted, or none, leaves the codes to join a point in Armed. -/
theorem captureTick_refused {fire : Bool} (h : fire = false ∨ s.trig.arm ≠ .armed ∨ s.trig.holdoff ≠ none)
    (hc : s.cap.cur = some c) (hph : c.phase = .armed) (hd : s.cap.desc = some d) (hlt : c.formed + 1 < d.d) :
    captureTick adc (fireTrigger fire s) = setCur { c with
      formed := c.formed + 1
      groups := addCodes c.formed c.groups (tickCodes d.input adc s.trig.timestamp) } s := by
  rw [fireTrigger_refused h, captureTick_forming hc (by rw [hph]; rfl) hd hlt]

/-- With no segment in flight a fire that is not accepted, or none, changes nothing. -/
theorem captureTick_alone {fire : Bool} (hc : s.cap.cur = none)
    (h : fire = false ∨ s.trig.arm ≠ .armed ∨ s.trig.holdoff ≠ none) : captureTick adc (fireTrigger fire s) = s := by
  rw [fireTrigger_refused h]
  exact captureTick_idle fun c hsome => by rw [hc] at hsome; cases hsome

/-! ## A tick with settings in use -/

variable {c1 c2 c3 c4 : Byte}

/-- A tick whose settings are in use and whose sample gives one fire at most. -/
theorem tick_sampled (hp : s.powered = true) (hq : s.trig.settings = some q) (h : KnownTrigger q)
    (hnow : now = s.trig.timestamp + 1)
    (hcode : code = (((tickCodes s.cap.input [c1.toNat, c2.toNat, c3.toNat, c4.toNat] now).getD
      q.source.toNat 0 : Nat) : Int))
    (hr : rising = risingFire q s.trig.risePrimed (tickExt s.cap.input s.trig.extLevel) (tickExt s.cap.input ext) code)
    (hf : falling = fallingFire q s.trig.fallPrimed (tickExt s.cap.input s.trig.extLevel) (tickExt s.cap.input ext) code)
    (once : (rising && falling) = false) : exec (.tick c1 c2 c3 c4 ext) s =
      .next (captureTick [c1.toNat, c2.toNat, c3.toNat, c4.toNat]
        (fireTrigger (triggerFire q s.trig.pulse now rising falling)
          (sampled ext (engineAfter q now (tickExt s.cap.input ext) rising falling code s.trig) s))) := by
  rw [tick_run hp, fullRateTick_eq, tickSample_eq hq h hnow hcode hr hf once]

/-! ## A rising edge on a channel (R54, R58) -/

/-- An Edge trigger with slope Rising on a channel. -/
structure RisingEdge (q : TrigSettings) (k : Nat) : Prop where
  type : q.type = 0
  slope : q.slope = 0
  source : q.source = k
  channel : k ≤ 3

theorem RisingEdge.known {k : Nat} (h : RisingEdge q k) : KnownTrigger q := ⟨.inl h.type, .inl h.slope⟩

theorem RisingEdge.source_ne_ext {k : Nat} (h : RisingEdge q k) : q.source ≠ 4 := by
  have := h.channel; rw [h.source]; omega

/-- The state after the sample of a tick under the ADC input that leaves the rising detector primed or not. -/
def edgeSampled (ext primed : Bool) (s : State) : State :=
  sampled ext { s.trig with
    timestamp := s.trig.timestamp + 1, extLevel := ext, fallPrimed := false, risePrimed := primed } s

/-- A tick of a rising edge trigger on a channel: a primed detector that finds the level reached fires and is primed no
longer; one at or below level − hysteresis is primed. -/
theorem tick_risingEdge {k : Nat} {b : Byte} {fire : Bool} (hp : s.powered = true) (hin : s.cap.input = .adc)
    (hq : s.trig.settings = some q) (h : RisingEdge q k) (hb : [c1, c2, c3, c4][k]? = some b)
    (hfire : fire = (s.trig.risePrimed && decide (q.level ≤ (b.toNat : Int)))) : exec (.tick c1 c2 c3 c4 ext) s =
      .next (captureTick [c1.toNat, c2.toNat, c3.toNat, c4.toNat] (fireTrigger fire
        (edgeSampled ext (!fire && (s.trig.risePrimed || decide ((b.toNat : Int) ≤ max 0 (q.level - q.hyst)))) s))) := by
  have code : (b.toNat : Int) = (((tickCodes s.cap.input [c1.toNat, c2.toNat, c3.toNat, c4.toNat]
      (s.trig.timestamp + 1)).getD q.source.toNat 0 : Nat) : Int) := by
    have channel : [c1.toNat, c2.toNat, c3.toNat, c4.toNat][k]? = some b.toNat := by
      have mapped := congrArg (Option.map BitVec.toNat) hb
      rwa [← List.getElem?_map] at mapped
    rw [hin, h.source, tickCodes, List.getD_eq_getElem?_getD, Int.toNat_natCast, channel]; rfl
  have rise : fire = risingFire q s.trig.risePrimed (tickExt s.cap.input s.trig.extLevel) (tickExt s.cap.input ext)
      b.toNat := by
    rw [risingFire, if_neg h.source_ne_ext, hfire, h.slope]; simp
  have fall : false = fallingFire q s.trig.fallPrimed (tickExt s.cap.input s.trig.extLevel) (tickExt s.cap.input ext)
      b.toNat := by
    rw [fallingFire, if_neg h.source_ne_ext, h.slope, h.type]; rfl
  rw [tick_sampled hp hq h.known rfl code rise fall (Bool.and_false _)]
  simp [triggerFire, engineAfter, edgeSampled, bne_iff_ne.2 h.source_ne_ext, h.slope, h.type, hin, tickExt]

/-- The same with no segment in flight, when the sample gives no fire that is accepted. -/
theorem tick_risingEdge_alone {k : Nat} {b : Byte} {fire : Bool} (hp : s.powered = true) (hin : s.cap.input = .adc)
    (hq : s.trig.settings = some q) (h : RisingEdge q k) (hb : [c1, c2, c3, c4][k]? = some b)
    (hfire : fire = (s.trig.risePrimed && decide (q.level ≤ (b.toNat : Int)))) (hc : s.cap.cur = none)
    (hno : fire = false ∨ s.trig.arm ≠ .armed) : exec (.tick c1 c2 c3 c4 ext) s =
      .next (edgeSampled ext (!fire && (s.trig.risePrimed || decide ((b.toNat : Int) ≤ max 0 (q.level - q.hyst)))) s) := by
  rw [tick_risingEdge hp hin hq h hb hfire]
  exact congrArg _ (captureTick_alone (s := edgeSampled ext _ s) hc (hno.imp_right .inl))

/-- Settles O30: a tick is the sample's equation, then the acceptance of its fire, then the forming point. -/
theorem risingEdgePrimesFiresAndIsAccepted : Obligations.RisingEdgePrimesFiresAndIsAccepted := by
  refine ⟨?_, ?_⟩
  · rintro s c1 c2 c3 c4 ext q k b hp hin hq htype hslope hsource hk hb _ rfl
    have edge : RisingEdge q k := ⟨htype, hslope, hsource, hk⟩
    refine ⟨fun hc hpr hle => ?_, fun hc hpr hlt => ?_, fun hc hpr hlt => ?_, fun hc harm hpr hle => ?_,
      fun c d harm hh hc hph hd hdin hlt hpr hle => ?_⟩
    · rw [tick_risingEdge_alone (fire := false) hp hin hq edge hb (by simp [hpr]) hc (.inl rfl), decide_eq_true hle,
        Bool.or_true]
      rfl
    · have kept : (!false && (s.trig.risePrimed || decide ((b.toNat : Int) ≤ max 0 (q.level - q.hyst)))) =
          s.trig.risePrimed := by rw [hpr, decide_eq_false (by omega)]; rfl
      rw [tick_risingEdge_alone (fire := false) hp hin hq edge hb (by simp [hpr]) hc (.inl rfl), kept]
      rfl
    · have kept : (!false && (s.trig.risePrimed || decide ((b.toNat : Int) ≤ max 0 (q.level - q.hyst)))) =
          s.trig.risePrimed := by rw [hpr]; rfl
      rw [tick_risingEdge_alone (fire := false) hp hin hq edge hb (by simp [hlt]) hc (.inl rfl), kept]
      rfl
    · rw [tick_risingEdge_alone (fire := true) hp hin hq edge hb (by simp [hpr, hle]) hc (.inr harm)]
      rfl
    · have run := tick_risingEdge (ext := ext) (fire := true) hp hin hq edge hb (by simp [hpr, hle])
      rw [captureTick_accepted (s := edgeSampled ext _ s) harm hh hc hph hd hq hlt, hdin] at run
      exact ⟨_, run, by rintro _ rfl; exact ⟨rfl, rfl, rfl, rfl, rfl⟩⟩
  · rintro s c1 c2 c3 c4 ext q now codes code was is rising falling fire u hp hq htype hs0 hs2 - - hnow hcodes hcode
      rfl rfl hr hf once rfl rfl
    have known : KnownTrigger q := ⟨htype, by omega⟩
    have brought : codes = tickCodes s.cap.input [c1.toNat, c2.toNat, c3.toNat, c4.toNat] now := by
      rw [hcodes]; cases s.cap.input <;> rfl
    have run := tick_sampled hp hq known hnow (brought ▸ hcode) hr hf once
    refine ⟨fun hc hno => ?_, fun c d hc hph hd hdin hlt => ?_⟩
    · rw [run]
      exact congrArg _ (captureTick_alone (s := sampled ext _ s) hc hno)
    · by_cases hno : triggerFire q s.trig.pulse now rising falling = false ∨ s.trig.arm ≠ .armed ∨ s.trig.holdoff ≠ none
      · refine ⟨_, run.trans (congrArg Host.Outcome.next
          (captureTick_refused (s := sampled ext _ s) hno hc hph hd hlt)), rfl,
          by rw [brought, ← hdin]; rfl, fun _ => ⟨rfl, rfl, rfl, congrArg some hph⟩, fun hfire harm hh => ?_⟩
        simp [hfire, harm, hh] at hno
      · obtain ⟨hfire, harm, hh⟩ : triggerFire q s.trig.pulse now rising falling = true ∧ s.trig.arm = .armed ∧
          s.trig.holdoff = none := by simpa using hno
        rw [hfire] at run
        refine ⟨_, run.trans (congrArg Host.Outcome.next
          (captureTick_accepted (s := sampled ext _ s) harm hh hc hph hd hq hlt)),
          rfl, by rw [brought, ← hdin]; rfl, fun h => absurd h hno, ?_⟩
        rintro - - - _ rfl
        exact ⟨rfl, rfl, rfl, rfl⟩

end Sys2Proof.Machine.TriggerEngine
end

section
/-! The rows of codes, the cells of planes, the building of planes and the window of a pass (R120 to R122, R127). -/

namespace Sys2Proof.Machine.Rasterizer

/-! ## Rows (R122) -/

/-- The three cases of a row: above the area, below it, and on it. -/
theorem codeRow_eq {position row : Int} {invert : Bool} {code : Nat}
    (h : row = 200 - ((if invert then -2 else 2) * ((code : Int) - 128) + position)) :
    codeRow position invert code =
      if row < 0 then ⟨0, true, false⟩ else if 399 < row then ⟨399, false, true⟩ else ⟨row.toNat, false, false⟩ := by
  subst h; rfl

theorem codeRow_clips {position row : Int} {invert : Bool} {code : Nat}
    (h : row = 200 - ((if invert then -2 else 2) * ((code : Int) - 128) + position)) :
    ((codeRow position invert code).row : Int) = max 0 (min 399 row) ∧
      ((codeRow position invert code).clipTop = true ↔ row < 0) ∧
      ((codeRow position invert code).clipBottom = true ↔ 399 < row) := by
  rw [codeRow_eq h]
  split
  case isTrue above => exact ⟨by dsimp only; omega, iff_of_true rfl above, iff_of_false nofun (by omega)⟩
  case isFalse notAbove =>
    split
    case isTrue below => exact ⟨by dsimp only; omega, iff_of_false nofun notAbove, iff_of_true rfl below⟩
    case isFalse notBelow => exact ⟨by dsimp only; omega, iff_of_false nofun notAbove, iff_of_false nofun notBelow⟩

/-! ## Cells (R120, R127) -/

/-- Taking away an eighth, rounded up, leaves seven eighths, rounded down. -/
theorem decayByte_toNat (v : Byte) : (decayByte v).toNat = v.toNat * 7 / 8 := by
  have := v.isLt
  rw [decayByte, BitVec.toNat_ofNat, Nat.mod_eq_of_lt] <;> omega

section Lanes

variable (hits : List (List (Nat × Nat))) (grade u : Nat) (data : List Byte)

theorem gradeLanes_length : (gradeLanes hits grade u data).length = 64 := by simp [gradeLanes]

theorem gradeLanes_getElem? {i : Nat} (hi : i < 64) : (gradeLanes hits grade u data)[i]? = some
    (if cellHit hits (u * 64 + i) then some (BitVec.ofNat 8 (min 255 ((data.getD i 0).toNat + grade))) else none) := by
  simp [gradeLanes, hi]

end Lanes

/-! ## The building of planes (R120) -/

section Planes

variable {l : Latched} {n : Nat} {on : Bool} {s : State} {p : Pass}

theorem planeBuild_eq (h : l.enable[n - 1]? = some on) : planeBuild l n =
    if on = false ∨ l.persist = 0 ∨ l.clear = true ∨ l.redraw = true then .cleared
    else if l.persist = 1 ∧ l.decayDue = true then .decayed else .copied := by
  cases on <;> simp [planeBuild, List.getD_eq_getElem?_getD, h]

theorem planeBuild_cleared_iff (h : l.enable[n - 1]? = some on) :
    planeBuild l n = .cleared ↔ on = false ∨ l.persist = 0 ∨ l.clear = true ∨ l.redraw = true := by
  rw [planeBuild_eq h]
  split
  case isTrue cleared => exact iff_of_true rfl cleared
  case isFalse kept => exact iff_of_false (by split <;> nofun) kept

theorem planeBuild_decayed_iff (h : l.enable[n - 1]? = some on) : planeBuild l n = .decayed ↔
    on = true ∧ l.clear = false ∧ l.redraw = false ∧ l.persist = 1 ∧ l.decayDue = true := by
  rw [planeBuild_eq h]
  split
  case isTrue cleared =>
    refine iff_of_false nofun ?_
    rintro ⟨hon, hclear, hredraw, hpersist, -⟩
    simp [hon, hclear, hredraw, hpersist] at cleared
  case isFalse kept =>
    simp only [not_or, Bool.not_eq_false, Bool.not_eq_true] at kept
    obtain ⟨hon, -, hclear, hredraw⟩ := kept
    split
    case isTrue due => exact iff_of_true rfl ⟨hon, hclear, hredraw, due⟩
    case isFalse notDue => exact iff_of_false nofun fun ⟨_, _, _, due⟩ => notDue due

/-- The model's address of a set is the statement's. -/
theorem setBase_eq (set : PlaneSet) : setBase set = planeSetBase set := by cases set <;> rfl

/-- The build's request of burst `n`: zeros to the back set, or a read of the front one. -/
theorem rasterNext_build (hready : s.ras.ready = []) (hstage : s.ras.stage = .build n) (hpass : s.ras.pass = some p)
    (hn : n < 25000) : (rasterNext s).map (·.1) = some
      (if planeBuild p.latched (n / 6250 + 1) = .cleared then
        ⟨planeSetBase (otherSet s.scan.front) + 64 * n, some (List.replicate 64 (some 0))⟩
      else ⟨planeSetBase s.scan.front + 64 * n, none⟩) := by
  simp [rasterNext, hready, hstage, hpass, setBursts, hn, planeBursts, setBase_eq, zeroLanes]

/-- A burst that was read is written to the same place of the back set, decayed or as it is. -/
theorem buildWrite_burst (l : Latched) (data : List Byte) :
    buildWrite s l (planeSetBase s.scan.front + 64 * n) data = ⟨planeSetBase (otherSet s.scan.front) + 64 * n,
      some (data.map fun v => some (if planeBuild l (n / 6250 + 1) = .decayed then decayByte v else v))⟩ := by
  have plane : 64 * n / 400000 = n / 6250 := by omega
  simp only [buildWrite, setBase_eq, Nat.add_sub_cancel_left, planeBytes, plane]
  split <;> rfl

end Planes

/-! ## The window (R121) -/

section Window

variable {fits : Nat → Prop} [DecidablePred fits] {z : Nat}

theorem foldl_max_fits_le {l : List Nat} {best : Nat} (hbest : best ≤ z) (hl : ∀ y ∈ l, fits y → y ≤ z) :
    l.foldl (fun best y => if fits y then max best y else best) best ≤ z := by
  induction l generalizing best with
  | nil => exact hbest
  | cons x l ih =>
    rw [List.forall_mem_cons] at hl
    refine ih ?_ hl.2
    change (if fits x then max best x else best) ≤ z
    split
    case isTrue hx => exact max_le hbest (hl.1 hx)
    case isFalse => exact hbest

theorem le_foldl_max_fits {l : List Nat} {best : Nat} (h : z ≤ best ∨ z ∈ l ∧ fits z) :
    z ≤ l.foldl (fun best y => if fits y then max best y else best) best := by
  induction l generalizing best with
  | nil => simpa using h
  | cons x l ih =>
    refine ih ?_
    rcases h with h | ⟨hz, fit⟩
    · left; dsimp only; split <;> omega
    · rcases List.mem_cons.1 hz with rfl | hz
      · left; simp [fit]
      · exact .inr ⟨hz, fit⟩

/-- The greatest zoom value that leaves 100 points is the effective one. -/
theorem zoomEff_eq {lDisp zoom : Nat} (hz : ∃ i ≤ zoom, z = zoomValue i) (fit : 100 * z ≤ lDisp)
    (greatest : ∀ i ≤ zoom, 100 * zoomValue i ≤ lDisp → zoomValue i ≤ z) (hl : 100 ≤ lDisp) : zoomEff lDisp zoom = z := by
  have one_le : 1 ≤ z := greatest 0 (Nat.zero_le _) hl
  refine le_antisymm (foldl_max_fits_le (fits := (100 * · ≤ lDisp)) one_le ?_)
    (le_foldl_max_fits (fits := (100 * · ≤ lDisp)) (.inr ⟨?_, fit⟩))
  · intro y hy
    obtain ⟨i, hi, rfl⟩ := List.mem_map.1 hy
    exact greatest i (Nat.lt_succ_iff.1 (List.mem_range.1 hi))
  · obtain ⟨i, hi, rfl⟩ := hz
    exact List.mem_map_of_mem (List.mem_range.2 (Nat.lt_succ_iff.2 hi))

theorem passWindow_eq {s : State} {l : Latched} {lDisp : Nat} (hd : s.ras.displayed = some lDisp)
    (hz : zoomEff lDisp l.zoom.toNat = z) : passWindow s l = (lDisp / z, min l.hpos.toNat (lDisp - lDisp / z)) := by
  simp [passWindow, passWindow.displayedLength, hd, windowWidth, hz]

end Window

end Sys2Proof.Machine.Rasterizer
end

section
/-! The columns of a trace: their vector extents and the cells they hit (R123 to R126). -/

namespace Sys2Proof.Machine.Rasterizer

/-! ## Extents (R123) -/

/-- The extent of some rows spans them, since no row lies below row 399. -/
theorem extentOf_spans {rows : List TraceRow} (hne : rows ≠ []) (hrows : ∀ r ∈ rows, r.row ≤ 399) :
    Spans (extentOf rows) rows := by
  have hne : rows.map (·.row) ≠ [] := by simpa using hne
  obtain ⟨a, ha, least⟩ := List.mem_map.1 (List.min_mem hne)
  obtain ⟨b, hb, greatest⟩ := List.mem_map.1 (List.max_mem hne)
  have top : (extentOf rows).top = a.row := by
    change rows.foldl (fun m r => min m r.row) 399 = _
    rw [← List.foldl_map, List.foldl_min, List.min?_eq_some_min hne, Option.getD_some, ← least]
    exact min_eq_right (hrows a ha)
  have bottom : (extentOf rows).bottom = b.row := by
    change rows.foldl (fun m r => max m r.row) 0 = _
    rw [← List.foldl_map, List.foldl_max, List.max?_eq_some_max hne, Option.getD_some, ← greatest]
    exact Nat.zero_max _
  refine ⟨fun r hr => ⟨?_, ?_⟩, ⟨a, ha, top.symm⟩, ⟨b, hb, bottom.symm⟩, ?_, ?_⟩
  · rw [top, least]; exact List.min_le_of_mem (List.mem_map_of_mem hr)
  · rw [bottom, greatest]; exact List.le_max_of_mem (List.mem_map_of_mem hr)
  · exact List.any_eq_true
  · exact List.any_eq_true

/-! ## Rows of points -/

/-- Both rows of every point lie in the area (R122). -/
def OnArea (rows : List PointRows) : Prop := ∀ p ∈ rows, p.1.row ≤ 399 ∧ p.2.row ≤ 399

variable {vector : Bool} {w off i j : Nat} {rows : List PointRows} {point next : PointRows}

theorem OnArea.getD (h : OnArea rows) (k : Nat) : (rows.getD k noRow).1.row ≤ 399 ∧ (rows.getD k noRow).2.row ≤ 399 := by
  rw [List.getD_eq_getElem?_getD]
  cases hk : rows[k]? with
  | none => exact ⟨Nat.zero_le _, Nat.zero_le _⟩
  | some p => exact h p (List.mem_of_getElem? hk)

/-! ## Compression (R123, R124) -/

/-- A stretch of the points read is that of the window's numbers, `off` places on. -/
theorem take_drop_eq_map_range' {a n : Nat} (h : a + off + n ≤ rows.length) :
    (rows.drop (a + off)).take n = (List.range' a n).map fun i => rows.getD (i + off) noRow := by
  refine List.ext_getElem (by simp; omega) fun k hk _ => ?_
  simp only [List.length_take, List.length_drop] at hk
  rw [List.getElem_take, List.getElem_drop, List.getElem_map, List.getElem_range', List.getD_eq_getElem _ _ (by omega)]
  congr 1; omega

theorem filter_range_eq_range' {a b : Nat} (hb : b ≤ w) :
    ((List.range w).filter fun i => decide (a ≤ i) && decide (i < b)) = List.range' a (b - a) := by
  rw [← List.filter_filter, ← List.Ico.zero_bot, List.Ico.filter_lt, List.Ico.filter_le, Nat.zero_max, min_eq_right hb]
  rfl

/-- The rows of all points of column `j` in compression (R123). -/
def ownRows (w off : Nat) (rows : List PointRows) (j : Nat) : List TraceRow :=
  ((List.range w).filter fun i => decide (j * w / 1000 ≤ i) && decide (i < (j + 1) * w / 1000)).flatMap
    fun i => [(rows.getD (i + off) noRow).1, (rows.getD (i + off) noRow).2]

/-- The row of the point before column `j`, when that point was read (R123). -/
def joiningRow (w off : Nat) (rows : List PointRows) (j : Nat) : List TraceRow :=
  if off = 0 ∧ j = 0 then [] else [(rows.getD (j * w / 1000 + off - 1) noRow).2]

theorem compressedColumn_eq (hw : 1000 ≤ w) (hlen : off + w ≤ rows.length) (hj : j < 1000) :
    compressedColumn vector w off rows j =
      (extentOf (joiningRow w off rows j ++ ownRows w off rows j),
        if vector then spanOf (extentOf (joiningRow w off rows j ++ ownRows w off rows j))
        else endsOf (extentOf (ownRows w off rows j))) := by
  have order : j * w / 1000 ≤ (j + 1) * w / 1000 := Nat.div_le_div_right (Nat.mul_le_mul_right w (Nat.le_succ j))
  have last : (j + 1) * w / 1000 ≤ w := by
    have : (j + 1) * w ≤ 1000 * w := Nat.mul_le_mul_right w (Nat.succ_le_of_lt hj)
    omega
  have own : (((rows.drop (j * w / 1000 + off)).take ((j + 1) * w / 1000 + off - (j * w / 1000 + off))).flatMap
      fun p => [p.1, p.2]) = ownRows w off rows j := by
    rw [Nat.add_sub_add_right, take_drop_eq_map_range' (by omega), ownRows, filter_range_eq_range' last, List.flatMap_map]
  have joining : (if 0 < j * w / 1000 + off then [(rows.getD (j * w / 1000 + off - 1) noRow).2] else []) =
      joiningRow w off rows j := by
    have first : j ≠ 0 → 1 * 1000 ≤ j * w := fun h => Nat.mul_le_mul (Nat.one_le_iff_ne_zero.2 h) hw
    have zero : j = 0 → j * w = 0 := by rintro rfl; exact Nat.zero_mul w
    rw [joiningRow, ← ite_not]
    exact if_congr (by omega) rfl rfl
  rw [compressedColumn, own, joining]

/-- In compression every column has a point of its own. -/
theorem ownRows_ne_nil (hw : 1000 ≤ w) (hj : j < 1000) : ownRows w off rows j ≠ [] := by
  have := Nat.mul_le_mul_right w (Nat.succ_le_of_lt hj)
  have mem : j * w / 1000 ∈ (List.range w).filter fun i => decide (j * w / 1000 ≤ i) && decide (i < (j + 1) * w / 1000) := by
    rw [Nat.succ_mul] at *
    simp only [List.mem_filter, List.mem_range, Bool.and_eq_true, decide_eq_true_eq]
    omega
  intro h
  simpa using List.flatMap_eq_nil_iff.1 h _ mem

theorem ownRows_onArea (h : OnArea rows) : ∀ r ∈ ownRows w off rows j, r.row ≤ 399 := by
  intro r hr
  obtain ⟨i, -, hr⟩ := List.mem_flatMap.1 hr
  rcases List.mem_pair.1 hr with rfl | rfl
  · exact (h.getD _).1
  · exact (h.getD _).2

theorem joiningRow_onArea (h : OnArea rows) : ∀ r ∈ joiningRow w off rows j, r.row ≤ 399 := by
  intro r hr
  unfold joiningRow at hr
  split at hr
  · cases hr
  · rw [List.mem_singleton.1 hr]; exact (h.getD _).2

/-- A compressed column spans its own rows and the row it joins; Dots hits the ends of its own. -/
theorem compressedColumn_spans (hw : 1000 ≤ w) (hlen : off + w ≤ rows.length) (h : OnArea rows) (hj : j < 1000) :
    Spans (compressedColumn vector w off rows j).1 (joiningRow w off rows j ++ ownRows w off rows j) ∧
      (vector = false → ∃ d, Spans d (ownRows w off rows j) ∧
        (compressedColumn vector w off rows j).2 = [(d.top, d.top), (d.bottom, d.bottom)]) := by
  have own := ownRows_ne_nil (off := off) (rows := rows) hw hj
  rw [compressedColumn_eq hw hlen hj]
  refine ⟨extentOf_spans (List.append_ne_nil_of_right_ne_nil _ own) ?_, ?_⟩
  · intro r hr
    exact (List.mem_append.1 hr).elim (joiningRow_onArea h r) (ownRows_onArea h r)
  · rintro rfl
    exact ⟨_, extentOf_spans own (ownRows_onArea h), rfl⟩

/-! ## Expansion (R125, R126) -/

/-- Point `i` owns column `j` in expansion. -/
structure Owns (w i j : Nat) : Prop where
  first : i * 1000 / w ≤ j
  last : j < (i + 1) * 1000 / w

theorem Owns.ownerOf_eq (h : Owns w i j) (hw : 0 < w) : ownerOf w j = i := by
  have first := (Nat.div_lt_iff_lt_mul hw).1 (Nat.lt_succ_of_le h.first)
  have last := (Nat.le_div_iff_mul_le hw).1 (Nat.succ_le_of_lt h.last)
  rw [Nat.succ_eq_add_one] at *
  unfold ownerOf
  omega

theorem Owns.between_eq (h : Owns w i j) (hw : 0 < w) (hp : point = rows.getD (i + off) noRow)
    (hn : next = rows.getD (i + 1 + off) point) :
    between w off rows j = (point, next, j - i * 1000 / w, (i + 1) * 1000 / w - i * 1000 / w) := by
  simp [between, h.ownerOf_eq hw, firstColumn, hn, hp]

/-- The first of a point's columns is the one at distance 0. -/
theorem Owns.distance_eq_zero_iff (h : Owns w i j) : j - i * 1000 / w = 0 ↔ j = i * 1000 / w := by
  have := h.first
  omega

theorem roundAway_zero (g : Nat) : roundAway 0 g = 0 := by
  have half : g / (2 * g) = 0 := Nat.div_eq_zero_iff.2 (by omega)
  simp [roundAway, half]

/-- Rounding away from zero is rounding the distance of the two rows to the nearest, halves up. -/
theorem roundAway_step (p q m g : Nat) : ((p : Int) + roundAway (((q : Int) - p) * m) g).toNat =
    if p ≤ q then p + (2 * (max q p - min q p) * m + g) / (2 * g) else p - (2 * (max q p - min q p) * m + g) / (2 * g) := by
  rcases Nat.eq_zero_or_pos m with rfl | hm
  · have half : g / (2 * g) = 0 := Nat.div_eq_zero_iff.2 (by omega)
    simp [roundAway_zero, half]
  · have distance : (((q : Int) - p) * m).natAbs = (max q p - min q p) * m := by
      rw [Int.natAbs_mul, Int.natAbs_natCast]; congr 1; omega
    have up : ((q : Int) - p) * m < 0 ↔ q < p := by
      rw [mul_neg_iff]; omega
    simp only [roundAway, distance, up, ← Nat.mul_assoc]
    generalize (2 * (max q p - min q p) * m + g) / (2 * g) = d
    split_ifs <;> omega

theorem Owns.interpolatedRow_eq (h : Owns w i j) (hw : 0 < w) (hp : point = rows.getD (i + off) noRow)
    (hn : next = rows.getD (i + 1 + off) point) {m g d : Nat} (hm : m = j - i * 1000 / w)
    (hg : g = (i + 1) * 1000 / w - i * 1000 / w)
    (hd : d = (2 * (max next.1.row point.1.row - min next.1.row point.1.row) * m + g) / (2 * g)) :
    interpolatedRow w off rows j = if point.1.row ≤ next.1.row then point.1.row + d else point.1.row - d := by
  subst hd hm hg
  simp only [interpolatedRow, h.between_eq hw hp hn, roundAway_step]

theorem Owns.formingRows_eq (h : Owns w i j) (hw : 0 < w) (hp : point = rows.getD (i + off) noRow)
    (hn : next = rows.getD (i + 1 + off) point) :
    formingRows w off rows j = if j - i * 1000 / w = 0 then [point.1] else [point.1, next.1] := by
  simp only [formingRows, h.between_eq hw hp hn, Nat.pos_iff_ne_zero, ite_not]

/-- The interpolated row of a point's first column is the point's own. -/
theorem Owns.interpolatedRow_first (h : Owns w i j) (hw : 0 < w) (hp : point = rows.getD (i + off) noRow)
    (hm : j - i * 1000 / w = 0) : interpolatedRow w off rows j = point.1.row := by
  simp [interpolatedRow, h.between_eq hw hp rfl, hm, roundAway_zero]

/-- In Peak mode a column spans its point's two rows; Dots hits them in the point's first column. -/
theorem Owns.expandedPeakColumn_spans (h : Owns w i j) (hw : 0 < w) (harea : OnArea rows)
    (hp : point = rows.getD (i + off) noRow) :
    Spans (expandedPeakColumn vector w off rows j).1 [point.1, point.2] ∧
      (vector = false → (expandedPeakColumn vector w off rows j).2 = if j = i * 1000 / w then
        [((expandedPeakColumn vector w off rows j).1.top, (expandedPeakColumn vector w off rows j).1.top),
          ((expandedPeakColumn vector w off rows j).1.bottom, (expandedPeakColumn vector w off rows j).1.bottom)]
        else []) := by
  simp only [expandedPeakColumn, h.ownerOf_eq hw, ← hp, firstColumn, beq_iff_eq]
  refine ⟨extentOf_spans (List.cons_ne_nil _ _) ?_, ?_⟩
  · intro r hr
    obtain ⟨least, greatest⟩ := hp ▸ harea.getD (i + off)
    rcases List.mem_pair.1 hr with rfl | rfl
    · exact least
    · exact greatest
  · rintro rfl; rfl

/-- In Sample and Mean modes Dots hits a point's row, in the point's first column. -/
theorem Owns.expandedColumn_dots (h : Owns w i j) (hw : 0 < w) (hp : point = rows.getD (i + off) noRow) :
    (expandedColumn false w off rows j).2 = if j - i * 1000 / w = 0 then [(point.1.row, point.1.row)] else [] := by
  simp only [expandedColumn, h.ownerOf_eq hw, firstColumn, beq_iff_eq, ← h.distance_eq_zero_iff, Bool.false_eq_true, if_false]
  exact ite_congr rfl (fun first => by rw [h.interpolatedRow_first hw hp first]) fun _ => rfl

theorem rowBefore_eq (hoff : off ≤ 1) : rowBefore off rows = if off = 0 then [] else [(rows.getD 0 noRow).2] := by
  rw [rowBefore, Nat.sub_eq_zero_of_le hoff]

/-- An expanded column runs between the row before it and its interpolated row; column 0 with no point before it holds its
own row alone. -/
theorem Owns.expandedColumn_ends (h : Owns w i j) (hw : 0 < w) (hoff : off ≤ 1) (hp : point = rows.getD (i + off) noRow)
    {before : Nat} (hb : before = (if j = 0 then if off = 0 then point.1.row else (rows.getD 0 noRow).2.row
      else interpolatedRow w off rows (j - 1))) :
    (expandedColumn vector w off rows j).1.top = min before (interpolatedRow w off rows j) ∧
      (expandedColumn vector w off rows j).1.bottom = max before (interpolatedRow w off rows j) := by
  simp only [expandedColumn, rowBefore_eq hoff]
  by_cases hj : j = 0
  · by_cases h0 : off = 0
    · have own := h.interpolatedRow_first hw hp (by rw [hj]; exact Nat.zero_sub _)
      simp [hb, hj, h0, ← own]
    · simp [hb, hj, h0, min_comm, max_comm]
  · simp [hb, hj, min_comm, max_comm]

/-- An expanded column carries the clip marks of the rows that it and the row it joins are formed from. -/
theorem expandedColumn_marks (hoff : off ≤ 1) {formed : List TraceRow} (hf : formed = formingRows w off rows j ++
      (if j = 0 then if off = 0 then [] else [(rows.getD 0 noRow).2] else formingRows w off rows (j - 1))) :
    ((expandedColumn vector w off rows j).1.clipTop = true ↔ ∃ x ∈ formed, x.clipTop = true) ∧
      ((expandedColumn vector w off rows j).1.clipBottom = true ↔ ∃ x ∈ formed, x.clipBottom = true) := by
  simp only [expandedColumn, rowBefore_eq hoff, ← hf]
  exact ⟨List.any_eq_true, List.any_eq_true⟩

/-! ## The columns of a channel -/

/-- Column `j` of a channel, in compression or in expansion. -/
def columnOf (vector peak : Bool) (w off : Nat) (rows : List PointRows) : Nat → Column :=
  if 1000 ≤ w then compressedColumn vector w off rows
  else if peak then expandedPeakColumn vector w off rows
  else expandedColumn vector w off rows

theorem traceColumns_getElem? {peak : Bool} (hj : j < 1000) :
    (traceColumns vector peak w off rows)[j]? = some (columnOf vector peak w off rows j) := by
  rw [traceColumns, List.getElem?_map, List.getElem?_range hj]
  rfl

/-- In Vector style every column hits its whole extent. -/
theorem columnOf_vector (peak : Bool) : (columnOf true peak w off rows j).2 =
    [((columnOf true peak w off rows j).1.top, (columnOf true peak w off rows j).1.bottom)] := by
  unfold columnOf
  split
  · rfl
  · split <;> rfl

theorem columnOf_compressed (peak : Bool) (hw : 1000 ≤ w) :
    columnOf vector peak w off rows = compressedColumn vector w off rows := if_pos hw

theorem columnOf_peak (hw : w < 1000) : columnOf vector true w off rows = expandedPeakColumn vector w off rows :=
  if_neg (Nat.not_le.2 hw)

theorem columnOf_expanded (hw : w < 1000) : columnOf vector false w off rows = expandedColumn vector w off rows :=
  if_neg (Nat.not_le.2 hw)

end Sys2Proof.Machine.Rasterizer
end

section
/-! The codes of a window's points (R70, R130), and the settled statement. -/

namespace Sys2Proof.Machine.Rasterizer

/-! ## Codes (R70, R130) -/

variable {b k off w : Nat}

/-- A point is the next one or two bytes. -/
theorem pointCodes_eq_cons (hb : b = 1 ∨ b = 2) {got : List Byte} (hlen : b ≤ got.length) : pointCodes b got =
    ((got.getD 0 0).toNat, (got.getD (b - 1) 0).toNat) :: pointCodes b (got.drop b) := by
  rcases hb with rfl | rfl
  · match got, hlen with
    | [_], _ => rfl
    | _ :: _ :: _, _ => rfl
  · match got, hlen with
    | _ :: _ :: _, _ => rfl

/-- Point `k` lies at bytes `k * b` to `k * b + b - 1`. -/
theorem pointCodes_getElem? (hb : b = 1 ∨ b = 2) {got : List Byte} (hlen : (k + 1) * b ≤ got.length) :
    (pointCodes b got)[k]? = some ((got.getD (k * b) 0).toNat, (got.getD (k * b + (b - 1)) 0).toNat) := by
  rw [Nat.succ_mul] at hlen
  induction k generalizing got with
  | zero => rw [pointCodes_eq_cons hb (by omega), List.getElem?_cons_zero, Nat.zero_mul, Nat.zero_add]
  | succ k ih =>
    rw [Nat.succ_mul] at hlen
    rw [pointCodes_eq_cons hb (by omega), List.getElem?_cons_succ, ih (by rw [List.length_drop]; omega)]
    simp only [List.getD_eq_getElem?_getD, List.getElem?_drop, Nat.succ_mul, Nat.add_comm _ b, Nat.add_assoc]

/-- Byte `i` is one of the two codes at the ADC's limits. -/
def RailAt (got : List Byte) (i : Nat) : Prop := got[i]? = some 0 ∨ got[i]? = some 255

/-- A point is at a rail when one of its bytes is. -/
theorem atRail_point_iff (hb : b = 1 ∨ b = 2) {got : List Byte} (hlen : (k + 1) * b ≤ got.length) :
    (∃ c, (pointCodes b got)[k]? = some c ∧ atRail c = true) ↔ ∃ i, i / b = k ∧ RailAt got i := by
  have bytes : (∃ i, i / b = k ∧ RailAt got i) ↔ RailAt got (k * b) ∨ RailAt got (k * b + (b - 1)) := by
    constructor
    · rintro ⟨i, rfl, h⟩
      have own : i = i / b * b ∨ i = i / b * b + (b - 1) := by rcases hb with rfl | rfl <;> omega
      rcases own with e | e
      · exact .inl (e ▸ h)
      · exact .inr (e ▸ h)
    · rintro (h | h)
      all_goals exact ⟨_, by rcases hb with rfl | rfl <;> omega, h⟩
  have code : ∀ i < got.length, RailAt got i ↔ (got.getD i 0).toNat = 0 ∨ (got.getD i 0).toNat = 255 := by
    intro i hi
    simp [RailAt, hi, BitVec.toNat_eq]
  rw [bytes]
  rw [Nat.succ_mul] at hlen
  rw [code _ (by omega), code _ (by omega)]
  simp [pointCodes_getElem? hb (Nat.succ_mul k b ▸ hlen), atRail, or_assoc]

theorem any_take_drop_iff {α : Type} {p : α → Bool} {l : List α} : ((l.drop off).take w).any p = true ↔
    ∃ k, off ≤ k ∧ k < off + w ∧ ∃ c, l[k]? = some c ∧ p c = true := by
  rw [List.any_eq_true]
  constructor
  · rintro ⟨c, hc, hp⟩
    obtain ⟨n, hn⟩ := List.mem_iff_getElem?.1 hc
    rw [List.getElem?_take] at hn
    split at hn
    · exact ⟨off + n, Nat.le_add_right _ _, by omega, c, List.getElem?_drop ▸ hn, hp⟩
    · cases hn
  · rintro ⟨k, lo, hi, c, hc, hp⟩
    refine ⟨c, List.mem_iff_getElem?.2 ⟨k - off, ?_⟩, hp⟩
    rw [List.getElem?_take_of_lt (by omega), List.getElem?_drop, Nat.add_sub_cancel' lo, hc]

/-- A point of the window is at a rail when one of the window's bytes is. -/
theorem window_atRail_iff (hb : b = 1 ∨ b = 2) {got : List Byte} (hlen : (off + w) * b ≤ got.length) :
    (((pointCodes b got).drop off).take w).any atRail = true ↔
      ∃ i, off * b ≤ i ∧ i < (off + w) * b ∧ RailAt got i := by
  have pos : 0 < b := by omega
  have point : ∀ k < off + w, ((∃ c, (pointCodes b got)[k]? = some c ∧ atRail c = true) ↔
      ∃ i, i / b = k ∧ RailAt got i) := fun k hk =>
    atRail_point_iff hb ((Nat.mul_le_mul_right b (Nat.succ_le_of_lt hk)).trans hlen)
  rw [any_take_drop_iff]
  constructor
  · rintro ⟨k, lo, hi, railed⟩
    obtain ⟨i, rfl, h⟩ := (point k hi).1 railed
    exact ⟨i, (Nat.le_div_iff_mul_le pos).1 lo, (Nat.div_lt_iff_lt_mul pos).1 hi, h⟩
  · rintro ⟨i, lo, hi, h⟩
    have hk := (Nat.div_lt_iff_lt_mul pos).2 hi
    exact ⟨i / b, (Nat.le_div_iff_mul_le pos).2 lo, hk, (point _ hk).2 ⟨i, rfl, h⟩⟩

theorem channelColumns_railed {s : State} {p : Pass} {d : Descriptor} {ch first : Nat} {got : List Byte}
    (hd : p.desc = some d) (hw : passWindow s p.latched = (w, first)) : (channelColumns s p ch got).2 =
      (((pointCodes d.b got).drop (if first = 0 then 0 else 1)).take w).any atRail := by
  simp only [channelColumns, hd, hw, windowOffset, Nat.pos_iff_ne_zero, ite_not]

/-! ## The statement -/

/-- Settles O43: each clause is the equation or the law of the function that it speaks of. -/
theorem rowsDecayAndGrades : Obligations.RowsDecayAndGrades := by
  refine ⟨fun _ _ _ _ => codeRow_clips, decayByte_toNat, ?_, ?_, ?_, ?_, ?_, ?_⟩
  case refine_1 =>
    refine fun hits grade u data => ⟨gradeLanes_length .., fun i hi => ⟨fun hit => ?_, fun miss => ?_⟩⟩
    · rw [gradeLanes_getElem? _ _ _ _ hi, if_pos hit]
    · rw [gradeLanes_getElem? _ _ _ _ hi, if_neg (Bool.eq_false_iff.1 miss)]
  case refine_2 => exact fun _ _ _ h => ⟨planeBuild_cleared_iff h, planeBuild_decayed_iff h⟩
  case refine_3 =>
    intro s p n back hready hstage hpass hn hback
    have other : back = otherSet s.scan.front := by rw [hback]; cases s.scan.front <;> rfl
    subst other
    exact ⟨rasterNext_build hready hstage hpass hn, fun _ => buildWrite_burst _ _⟩
  case refine_4 =>
    intro s l lDisp z hd hl _ hz fit greatest
    exact passWindow_eq hd (zoomEff_eq hz fit greatest hl)
  case refine_5 =>
    intro vector peak w off rows j hoff hw hlen harea hj
    refine ⟨(columnOf vector peak w off rows j).1, (columnOf vector peak w off rows j).2, traceColumns_getElem? hj,
      ?_, ?_, ?_⟩
    · rintro rfl; exact columnOf_vector peak
    · rintro wide own joining rfl rfl
      rw [columnOf_compressed peak wide]
      exact compressedColumn_spans wide hlen harea hj
    · intro i point next narrow first last hp hn
      have owns : Owns w i j := ⟨first, last⟩
      have hw : 0 < w := by omega
      refine ⟨?_, ?_⟩
      · rintro rfl
        rw [columnOf_peak narrow]
        exact owns.expandedPeakColumn_spans hw harea hp
      · rintro rfl m g d before rfl hg hd
        rw [columnOf_expanded narrow]
        refine ⟨owns.interpolatedRow_eq hw hp hn rfl hg hd, owns.formingRows_eq hw hp hn, ?_,
          owns.expandedColumn_ends hw hoff hp, fun _ => expandedColumn_marks hoff⟩
        rintro rfl; exact owns.expandedColumn_dots hw hp
  case refine_6 =>
    rintro s p d ch w first _ got hd hb hw rfl hlen
    rw [channelColumns_railed hd hw]
    exact window_atRail_iff hb hlen

end Sys2Proof.Machine.Rasterizer
end

section
/-! The mask section and its counts: what a change set with only a mask edit comes to, what its run of zones makes of the
section, and the requests that write, clear and read (R137 to R140, R146). -/

namespace Sys2Proof.Machine.MaskTesting

open FrontPanel

variable {r : Request} {s : State} {serve : Request → State → State} {live : Option (List Zone)}
  {zones good rest : List (Nat × Nat)} {z : Nat × Nat} {first : Nat} {section200 : List Zone}

/-! ## A change set with only a mask edit (R3, R10, R18) -/

/-- The state with another mask section in the live setup. -/
def withMask (m : Option (List Zone)) (s : State) : State := { s with setup := { s.setup with mask := m } }

theorem changedIds_self (vals : List Int) : changedIds vals vals = [] := by simp [changedIds]

theorem setEffects_nil (s : State) : setEffects [] s = s := rfl

theorem applySet_maskOnly (m : Option (List Zone)) (s : State) :
    applySet ⟨s.setup.values, m, [], false⟩ s = withMask m s := by
  rw [applySet, changedIds_self, setEffects_nil]; rfl

theorem judgeSet_maskOnly {edit : MaskEdit} (h : setFailure s.setup.mask ⟨[], edit⟩ = none) :
    judgeSet ⟨[], edit⟩ s = .ok ⟨s.setup.values, editedMask s.setup.mask edit, [], false⟩ := by
  rw [judgeSet, h]; rfl

theorem judgeSet_failing {cs : ChangeSet} {f : SetFailure} (h : setFailure s.setup.mask cs = some f) :
    judgeSet cs s = .error f := by
  rw [judgeSet, h]

theorem reachSetup_loaded (h : s.setup.loadApplied = true) : reachSetup serve r s = serve r s := if_pos h

/-! ## The zone check (R137) -/

theorem zoneFails_iff : zoneFails z = true ↔ ¬ BoundsValid z := by
  simp only [zoneFails, BoundsValid, Prod.ext_iff, Bool.not_eq_true', Bool.or_eq_false_iff, Bool.and_eq_false_iff,
    beq_eq_false_iff_ne, decide_eq_false_iff_not]
  omega

theorem firstBadZone_valid (h : ∀ z ∈ zones, BoundsValid z) (num : Nat) : firstBadZone num zones = none := by
  induction zones generalizing num with
  | nil => rfl
  | cons z zones ih =>
    obtain ⟨hz, hzones⟩ := List.forall_mem_cons.1 h
    rw [firstBadZone, if_neg (mt zoneFails_iff.1 (not_not_intro hz)), ih hzones]

/-- The failing zone named is the first, by its number. -/
theorem firstBadZone_failing (h : ∀ y ∈ good, BoundsValid y) (hz : ¬ BoundsValid z) (num : Nat) :
    firstBadZone num (good ++ z :: rest) = some ⟨.badValue, .zone (num + good.length)⟩ := by
  induction good generalizing num with
  | nil => exact if_pos (zoneFails_iff.2 hz)
  | cons y good ih =>
    obtain ⟨hy, hgood⟩ := List.forall_mem_cons.1 h
    rw [List.cons_append, firstBadZone, if_neg (mt zoneFails_iff.1 (not_not_intro hy)), ih hgood, List.length_cons,
      Nat.add_right_comm, Nat.add_assoc]

/-! ## A section and a run of zones written over it (R2, R138) -/

theorem maskValid_present (h : MaskValid live) : MaskValid (some (live.getD blankSection)) := by
  cases live with
  | some zones => exact h
  | none =>
    rintro _ ⟨⟩
    exact ⟨List.length_replicate, fun t b hm => nomatch List.eq_of_mem_replicate hm⟩

/-- The bounds of the live section, or of the one that stands for it when it is absent (R138). -/
def sectionBounds (live : Option (List Zone)) : List (Nat × Nat) := (live.getD blankSection).map zoneBounds

theorem editedBounds_writeRun (live : Option (List Zone)) (first : Nat) (zones : List (Nat × Nat)) :
    editedBounds live (.writeRun first zones) = some
      ((sectionBounds live).take first ++ zones ++ (sectionBounds live).drop (first + zones.length)) := rfl

theorem sectionBounds_length (h : MaskValid live) : (sectionBounds live).length = 200 := by
  rw [sectionBounds, List.length_map, (maskValid_present h _ rfl).1]

theorem sectionBounds_valid (h : MaskValid live) : ∀ y ∈ sectionBounds live, BoundsValid y := by
  rintro _ hy
  obtain ⟨z, hz, rfl⟩ := List.mem_map.1 hy
  cases z with
  | unbounded => exact .inl rfl
  | bounded t b => exact .inr ((maskValid_present h _ rfl).2 t b hz)

theorem zoneOfBounds_zoneBounds (h : MaskValid (some section200)) {z : Zone} (hz : z ∈ section200) :
    zoneOfBounds (zoneBounds z) = z := by
  cases z with
  | unbounded => rfl
  | bounded t b =>
    obtain ⟨htb, hb⟩ := (h _ rfl).2 t b hz
    exact if_neg fun ⟨ht, _⟩ => by simp only [zoneBounds] at ht; omega

theorem map_zoneOfBounds_sectionBounds (h : MaskValid live) :
    (sectionBounds live).map zoneOfBounds = live.getD blankSection := by
  rw [sectionBounds, List.map_map, List.map_congr_left (f := zoneOfBounds ∘ zoneBounds) (g := id)
    fun _ => zoneOfBounds_zoneBounds (maskValid_present h), List.map_id]

/-- A section with a run of zones written over it. -/
def runWritten (first : Nat) (zones : List (Nat × Nat)) (old : List Zone) : List Zone :=
  old.take first ++ zones.map zoneOfBounds ++ old.drop (first + zones.length)

theorem editedMask_writeRun (h : MaskValid live) :
    editedMask live (.writeRun first zones) = some (runWritten first zones (live.getD blankSection)) := by
  simp only [editedMask, editedBounds_writeRun, Option.map_some, runWritten, List.map_append, List.map_take,
    List.map_drop, map_zoneOfBounds_sectionBounds h]

theorem runWritten_length (h : section200.length = 200) (hr : first + zones.length ≤ 200) :
    (runWritten first zones section200).length = 200 := by
  simp only [runWritten, List.length_append, List.length_take, List.length_map, List.length_drop]; omega

theorem runWritten_getElem? {old : List Zone} (h : first ≤ old.length) (k : Nat) : (runWritten first zones old)[k]? =
    if first ≤ k ∧ k < first + zones.length then (zones[k - first]?).map zoneOfBounds else old[k]? := by
  have kept : (old.take first).length = first := List.length_take_of_le h
  have written : (old.take first ++ zones.map zoneOfBounds).length = first + zones.length := by simp [kept]
  rcases Nat.lt_or_ge k first with before | from_first
  · rw [if_neg (by omega), runWritten, List.append_assoc, List.getElem?_append_left (by omega),
      List.getElem?_take_of_lt before]
  · rcases Nat.lt_or_ge k (first + zones.length) with inside | after
    · rw [if_pos ⟨from_first, inside⟩, runWritten, List.getElem?_append_left (by omega),
        List.getElem?_append_right (by omega), kept, List.getElem?_map]
    · rw [if_neg (by omega), runWritten, List.getElem?_append_right (by omega), written, List.getElem?_drop,
        Nat.add_sub_cancel' after]

theorem zoneOfBounds_eq (z : Nat × Nat) :
    zoneOfBounds z = if z = (0xFFFF, 0xFFFF) then Zone.unbounded else .bounded z.1 z.2 := by
  simp only [zoneOfBounds, Prod.ext_iff]

theorem isBounded_eq (z : Zone) : isBounded z = decide (z ≠ .unbounded) := by cases z <;> rfl

/-- A run of valid zones passes validation, over any section. -/
theorem setFailure_run_valid (h : MaskValid live) (hz : ∀ z ∈ zones, BoundsValid z) :
    setFailure live ⟨[], .writeRun first zones⟩ = none := by
  refine firstBadZone_valid (fun y hy => ?_) 0
  simp only [editedBounds_writeRun, Option.getD_some, List.mem_append] at hy
  rcases hy with (hy | hy) | hy
  · exact sectionBounds_valid h y (List.mem_of_mem_take hy)
  · exact hz y hy
  · exact sectionBounds_valid h y (List.mem_of_mem_drop hy)

/-- A run with a failing zone fails at the number of its first failing zone. -/
theorem setFailure_run_failing (h : MaskValid live) (hf : first ≤ 199) (hg : ∀ y ∈ good, BoundsValid y)
    (hz : ¬ BoundsValid z) : setFailure live ⟨[], .writeRun first (good ++ z :: rest)⟩ =
      some ⟨.badValue, .zone (first + good.length)⟩ := by
  have kept : ((sectionBounds live).take first).length = first :=
    List.length_take_of_le (by rw [sectionBounds_length h]; omega)
  have before : ∀ y ∈ (sectionBounds live).take first ++ good, BoundsValid y := fun y hy =>
    (List.mem_append.1 hy).elim (fun hy => sectionBounds_valid h y (List.mem_of_mem_take hy)) (hg y)
  have failing := fun tail => firstBadZone_failing (rest := rest ++ tail) before hz 0
  rw [List.length_append, kept, Nat.zero_add] at failing
  simp only [setFailure, firstBadPair, editedBounds_writeRun, Option.getD_some, List.append_assoc, List.cons_append]
    at failing ⊢
  exact failing _

/-! ## WriteMask (R138) -/

/-- A WriteMask payload says: this run of zones, from this zone number on. -/
structure RunBytes (payload : List Byte) (first : Nat) (zones : List (Nat × Nat)) : Prop where
  first : byteAt payload 0 = first
  count : byteAt payload 1 = zones.length
  bounds : readBounds zones.length (payload.drop 2) = zones

theorem readBounds_flatMap (h : ∀ z ∈ zones, z.1 < 65536 ∧ z.2 < 65536) :
    readBounds zones.length (zones.flatMap fun z => leBytes 2 z.1 ++ leBytes 2 z.2) = zones := by
  rw [readBounds, chunks_flatMap fun z => by simp, List.map_map, List.map_congr_left (g := id) ?_, List.map_id]
  intro z hz
  obtain ⟨htop, hbottom⟩ := h z hz
  have top := fieldAt_append (a := []) (c := leBytes 2 z.2) (n := 2) rfl htop
  have bottom := fieldAt_append (a := leBytes 2 z.1) (c := []) (n := 2) (leBytes_length 2 z.1) hbottom
  rw [List.append_nil] at bottom
  exact Prod.ext top bottom

theorem runBytes_of_payload (hf : first < 256) (hl : zones.length ≤ 200) (hz : ∀ z ∈ zones, z.1 < 65536 ∧ z.2 < 65536) :
    RunBytes (BitVec.ofNat 8 first :: BitVec.ofNat 8 zones.length ::
      zones.flatMap fun z => leBytes 2 z.1 ++ leBytes 2 z.2) first zones where
  first := Nat.mod_eq_of_lt hf
  count := Nat.mod_eq_of_lt (show zones.length < 2 ^ 8 by omega)
  bounds := readBounds_flatMap hz

theorem reachWriteMask_outside (b : RunBytes r.payload first zones) (h : 199 < first ∨ 200 < first + zones.length) :
    reachWriteMask r s = replyRefused r.tag r.kind .badValue (.zone first) s := by
  simp only [reachWriteMask, b.first, b.count]
  exact if_pos h

/-- The mask checker hands a run inside the section on to the setup controller, which serves it once the power-on load is
applied (R24, R138). -/
theorem reachWriteMask_inside (b : RunBytes r.payload first zones) (hl : s.setup.loadApplied = true) (hf : first ≤ 199)
    (hr : first + zones.length ≤ 200) : reachWriteMask r s = serveWriteMask r s := by
  simp only [reachWriteMask, b.first, b.count]
  exact (if_neg (by omega)).trans (reachSetup_loaded hl)

theorem serveWriteMask_written (b : RunBytes r.payload first zones) (hf : first ≤ 199) (hr : first + zones.length ≤ 200)
    (hm : MaskValid s.setup.mask) (hz : ∀ z ∈ zones, BoundsValid z)
    (hw : runWritten first zones (s.setup.mask.getD blankSection) = section200) : serveWriteMask r s =
      replyDone r.tag [boolByte s.setup.mask.isSome,
        BitVec.ofNat 8 (section200.filter fun z => decide (z ≠ .unbounded)).length] (withMask (some section200) s) := by
  have inside : ¬ (first > 199 ∨ first + zones.length > 200) := by omega
  have judged := judgeSet_maskOnly (setFailure_run_valid (first := first) hm hz)
  rw [editedMask_writeRun hm, hw] at judged
  simp only [serveWriteMask, b.first, b.count, b.bounds, if_neg inside, judged, applySet_maskOnly, Option.getD_some,
    funext isBounded_eq]

theorem serveWriteMask_failing (b : RunBytes r.payload first (good ++ z :: rest)) (hf : first ≤ 199)
    (hr : first + (good ++ z :: rest).length ≤ 200) (hm : MaskValid s.setup.mask) (hg : ∀ y ∈ good, BoundsValid y)
    (hz : ¬ BoundsValid z) :
    serveWriteMask r s = replyRefused r.tag r.kind .badValue (.zone (first + good.length)) s := by
  have inside : ¬ (first > 199 ∨ first + (good ++ z :: rest).length > 200) := by omega
  have judged := judgeSet_failing (setFailure_run_failing (rest := rest) hm hf hg hz)
  simp only [serveWriteMask, b.first, b.count, b.bounds, if_neg inside, judged]

/-- Settles O14: a run outside the zones is refused by the mask checker, one with a failing zone by the zone check, and
any other is written over the section. -/
theorem writeMaskWritesItsRun : Obligations.WriteMaskWritesItsRun := by
  intro r s first zones hr hl hfirst _ hlen hfit hm hp
  have b : RunBytes r.payload first zones := hp ▸ runBytes_of_payload hfirst hlen hfit
  have arm : exec .writeMask s = dispatchCommand 0x20 reachWriteMask s := rfl
  have reached := fun hf hrun => reachWriteMask_inside (s := taken s) b hl hf hrun
  refine ⟨fun hf hrun hz => ?_, fun outside => ?_, fun hf hrun good z rest hzones hg hz => ?_⟩
  · have length := (maskValid_present hm _ rfl).1
    refine ⟨runWritten first zones (s.setup.mask.getD blankSection), runWritten_length length hrun, fun k _ => ?_, ?_⟩
    · rw [runWritten_getElem? (by omega), funext zoneOfBounds_eq]; rfl
    · exact arm.trans (dispatch_replied hr (u := withMask _ (taken s)) rfl
        ((reached hf hrun).trans (serveWriteMask_written b hf hrun hm hz rfl)))
  · exact arm.trans (dispatch_answered hr (reachWriteMask_outside (s := taken s) b outside))
  · subst hzones
    exact arm.trans (dispatch_answered hr ((reached hf hrun).trans (serveWriteMask_failing b hf hrun hm hg hz)))

/-! ## ClearMask, ReadMask and ClearMaskCounts (R139, R140, R146) -/

theorem serveClearMask_eq (r : Request) (s : State) :
    serveClearMask r s = replyDone r.tag [boolByte s.setup.mask.isSome] (withMask none s) := by
  have judged : judgeSet ⟨[], .remove⟩ s = .ok ⟨s.setup.values, none, [], false⟩ := judgeSet_maskOnly rfl
  simp only [serveClearMask, judged, applySet_maskOnly]

theorem serveReadMask_absent (h : s.setup.mask = none) : serveReadMask r s = replyDone r.tag [0] s := by
  simp only [serveReadMask, h]

theorem serveReadMask_present {zones : List Zone} (h : s.setup.mask = some zones) :
    serveReadMask r s = replyDone r.tag (1 :: maskBytes zones) s := by
  simp only [serveReadMask, h]

/-- The bytes of a section are those of its zones in order, an unbounded zone's being 0xFFFF twice (R137, R140). -/
theorem maskBytes_eq_flatMap {f : Zone → List Byte} (unbounded : f .unbounded = [0xFF, 0xFF, 0xFF, 0xFF])
    (bounded : ∀ t b, f (.bounded t b) = leBytes 2 t ++ leBytes 2 b) (zones : List Zone) :
    maskBytes zones = zones.flatMap f := by
  refine List.flatMap_congr fun z _ => ?_
  cases z with
  | unbounded => exact unbounded.symm
  | bounded t b => exact (bounded t b).symm

/-- Settles O15: each request served is one reply, with the section or the counts replaced or as they were. -/
theorem maskSectionIsClearedAndRead : Obligations.MaskSectionIsClearedAndRead := by
  intro r s
  refine ⟨fun hr => ?_, fun hl hr => ?_, fun hl hr => ?_⟩
  · have arm : exec .clearMaskCounts s = dispatchCommand 0x23 serveClearMaskCounts s := rfl
    exact arm.trans (dispatch_replied hr (u := { taken s with mask := ⟨0, 0⟩ }) rfl rfl)
  · have arm : exec .clearMask s = dispatchCommand 0x21 (reachSetup serveClearMask) s := rfl
    exact arm.trans (dispatch_replied hr (u := withMask none (taken s)) rfl
      ((reachSetup_loaded (s := taken s) hl).trans (serveClearMask_eq r (taken s))))
  · have arm : exec .readMask s = dispatchCommand 0x22 (reachSetup serveReadMask) s := rfl
    have reached : reachSetup serveReadMask r (taken s) = serveReadMask r (taken s) := reachSetup_loaded hl
    cases hm : s.setup.mask with
    | none => exact request_reported arm hr (reached.trans (serveReadMask_absent hm))
    | some zones =>
      exact (request_reported arm hr (reached.trans (serveReadMask_present hm))).trans
        (congrArg (fun bytes => Host.Outcome.next (answered s (doneReply r (1 :: bytes))))
          (maskBytes_eq_flatMap rfl (fun _ _ => rfl) zones))

end Sys2Proof.Machine.MaskTesting
end

section
/-! The palette and the waveform area: what a WritePalette's run of entries makes of the palette, and where a SetWaveArea puts
the pending origin (R155, R159). -/

namespace Sys2Proof.Machine.Composition

open FrontPanel

variable {r : Request} {s : State} {serve : Request → State → State} {kind : Byte} {cmd : Instr}
  {cs : List (Byte × Byte × Byte)} {first x y : Nat}

/-- A request that changes the scan-out controller and is answered at once. -/
theorem scanOut_done {c : ScanOut} {bytes : List Byte} (arm : exec cmd s = dispatchCommand kind serve s)
    (h : InHandover kind r s) (hs : serve r (taken s) = replyDone r.tag bytes (setScan c (taken s))) :
    exec cmd s = .next { answered s (doneReply r bytes) with scan := c } :=
  arm.trans (dispatch_replied h (u := setScan c (taken s)) rfl hs)

/-! ## A run of palette entries (R155) -/

/-- The three bytes of a colour, red first, as WritePalette carries them. -/
def colourBytes (c : Byte × Byte × Byte) : List Byte := [c.1, c.2.1, c.2.2]

/-- The colour that three bytes spell. -/
def colourOf (c : Byte × Byte × Byte) : Colour :=
  BitVec.ofNat 24 (c.1.toNat * 65536 + c.2.1.toNat * 256 + c.2.2.toNat)

/-- A WritePalette payload says: these colours, from this entry on. -/
structure PaletteBytes (payload : List Byte) (first : Nat) (cs : List (Byte × Byte × Byte)) : Prop where
  first : byteAt payload 0 = first
  count : fieldAt payload 1 2 = cs.length
  colours : paletteColours payload = cs.map colourOf

theorem paletteBytes_of_payload (hf : first < 256) (hl : cs.length ≤ 256) :
    PaletteBytes (BitVec.ofNat 8 first :: leBytes 2 cs.length ++ cs.flatMap colourBytes) first cs := by
  have count : fieldAt (BitVec.ofNat 8 first :: leBytes 2 cs.length ++ cs.flatMap colourBytes) 1 2 = cs.length :=
    fieldAt_append (a := [BitVec.ofNat 8 first]) rfl (Nat.lt_of_le_of_lt hl (by decide))
  have entries : (BitVec.ofNat 8 first :: leBytes 2 cs.length ++ cs.flatMap colourBytes).drop 3 =
      cs.flatMap colourBytes := rfl
  refine ⟨Nat.mod_eq_of_lt hf, count, ?_⟩
  rw [paletteColours, count, entries, chunks_flatMap (size := 3) fun _ => rfl, List.map_map]
  rfl

/-- A list with a run of entries written over it from a place on: the entry at each place. -/
theorem overwritten_getElem? {α : Type} {old run : List α} (h : first + run.length ≤ old.length) (i : Nat) :
    (old.take first ++ run ++ old.drop (first + run.length))[i]? =
      if first ≤ i ∧ i < first + run.length then run[i - first]? else old[i]? := by
  have kept : (old.take first).length = first := List.length_take_of_le (by omega)
  rcases Nat.lt_or_ge i first with before | from_first
  · rw [if_neg (by omega), List.append_assoc, List.getElem?_append_left (by omega), List.getElem?_take_of_lt before]
  · rw [List.append_assoc, List.getElem?_append_right (by omega), kept]
    rcases Nat.lt_or_ge i (first + run.length) with inside | after
    · rw [if_pos ⟨from_first, inside⟩, List.getElem?_append_left (by omega)]
    · rw [if_neg (by omega), List.getElem?_append_right (by omega), List.getElem?_drop]
      congr 1; omega

/-- The palette with a run of colours written over it. -/
def paletteWritten (first : Nat) (colours old : List Colour) : List Colour :=
  old.take first ++ colours ++ old.drop (first + colours.length)

theorem paletteWritten_length {colours old : List Colour} (h : first + colours.length ≤ old.length) :
    (paletteWritten first colours old).length = old.length := by
  simp only [paletteWritten, List.length_append, List.length_take, List.length_drop]; omega

theorem serveWritePalette_past (b : PaletteBytes r.payload first cs) (h : 256 < first + cs.length) :
    serveWritePalette r s = replyRefused r.tag r.kind .badValue .none s := by
  simp only [serveWritePalette, b.first, b.count, if_pos h]

theorem serveWritePalette_inside (b : PaletteBytes r.payload first cs) (h : first + cs.length ≤ 256) :
    serveWritePalette r s = replyDone r.tag []
      (setScan { s.scan with palette := paletteWritten first (cs.map colourOf) s.scan.palette } s) := by
  simp only [serveWritePalette, b.first, b.count, b.colours, if_neg (Nat.not_lt.2 h), paletteWritten]

/-! ## The origin of the waveform area (R159) -/

/-- An origin differs from its clamped value exactly when a coordinate is above its limit. -/
theorem clampedByte_eq (x y : Nat) :
    boolByte (min x 280 != x || min y 400 != y) = if 280 < x ∨ 400 < y then 1 else 0 := by
  have above : (min x 280 != x || min y 400 != y) = decide (280 < x ∨ 400 < y) := by
    rw [Bool.eq_iff_iff, Bool.or_eq_true, bne_iff_ne, bne_iff_ne, decide_eq_true_iff]; omega
  rw [above, boolByte]; simp only [decide_eq_true_eq]

theorem serveSetWaveArea_eq (hx : x < 65536) (hy : y < 65536) (hp : r.payload = leBytes 2 x ++ leBytes 2 y) :
    serveSetWaveArea r s = replyDone r.tag (leBytes 2 (min x 280) ++ leBytes 2 (min y 400) ++
        [if 280 < x ∨ 400 < y then 1 else 0])
      (setScan { s.scan with pendingOrigin := some (min x 280, min y 400) } s) := by
  have x_read : fieldAt r.payload 0 2 = x := hp ▸ fieldAt_append (a := []) rfl hx
  have y_read : fieldAt r.payload 2 2 = y := by
    rw [hp, ← List.append_nil (leBytes 2 y)]
    exact fieldAt_append (leBytes_length 2 x) hy
  simp only [serveSetWaveArea, x_read, y_read, clampedByte_eq]

/-- Settles O40: a run that would pass entry 255 is refused, any other is written over the palette, and the origin made
pending is the clamped one. -/
theorem paletteAndWaveAreaAreSet : Obligations.PaletteAndWaveAreaAreSet := by
  intro r s
  refine ⟨fun first cs hr hfirst _ hlen h256 hp => ?_, fun x y hr hx hy hp => ?_⟩
  · have b : PaletteBytes r.payload first cs := hp ▸ paletteBytes_of_payload hfirst hlen
    have arm : exec .writePalette s = dispatchCommand 0x26 serveWritePalette s := rfl
    refine ⟨fun past => request_refused arm hr (serveWritePalette_past b past), fun inside => ?_⟩
    have fits : first + (cs.map colourOf).length ≤ s.scan.palette.length := by rw [List.length_map, h256]; exact inside
    refine ⟨paletteWritten first (cs.map colourOf) s.scan.palette, ?_, (paletteWritten_length fits).trans h256,
      fun i _ => ?_⟩
    · exact scanOut_done arm hr (serveWritePalette_inside b inside)
    · rw [paletteWritten, overwritten_getElem? fits, List.length_map, List.getElem?_map]; rfl
  · have arm : exec .setWaveArea s = dispatchCommand 0x27 serveSetWaveArea s := rfl
    exact scanOut_done arm hr (serveSetWaveArea_eq hx hy hp)

end Sys2Proof.Machine.Composition
end

section
/-! What a loss of power leaves of the NV area: a write reads back as before outside its bytes, whatever the memory, and a program
cut off on erased bytes is partial (R167, R169, R185). -/

namespace Sys2Proof.Machine.SetupStore

variable {d v : Byte} {m nv : Memory} {a b cut sector offset : Nat} {record bytes found : List Byte} {s : State}

/-! ## Bytes outside a write -/

theorem memRead_memWrite_ne (h : b ≠ a) : memRead d (memWrite d m a v) b = memRead d m b := by
  induction m with
  | nil => simp only [memWrite]; split <;> simp [memRead, h.symm]
  | cons c m ih =>
    simp only [memWrite]
    split
    · split <;> simp [memRead, h.symm]
    · split
      · next at_c => split <;> simp [memRead, ← at_c, h.symm]
      · simp only [memRead, ih]

theorem memRead_memWriteLanes_elsewhere {lanes : Lanes} (h : b < a ∨ a + lanes.length ≤ b) :
    memRead d (memWriteLanes d m a lanes) b = memRead d m b := by
  induction lanes generalizing m a with
  | nil => rfl
  | cons l ls ih =>
    rw [List.length_cons] at h
    cases l with
    | none => exact ih (by omega)
    | some v => exact (ih (by omega)).trans (memRead_memWrite_ne (by omega))

/-- Outside the bytes written a memory reads as before, canonical or not. -/
theorem memRead_memWriteBytes_elsewhere (h : b < a ∨ a + bytes.length ≤ b) :
    memRead d (memWriteBytes d m a bytes) b = memRead d m b :=
  memRead_memWriteLanes_elsewhere (by rwa [List.length_map])

theorem memRead_programBytes_elsewhere (h : a < sector * 4096 + offset ∨ sector * 4096 + offset + bytes.length ≤ a) :
    memRead nvDefault (programBytes nv sector offset bytes) a = memRead nvDefault nv a :=
  memRead_memWriteBytes_elsewhere h

theorem memRead_halfErase_elsewhere (h : a < sector * 4096 ∨ sector * 4096 + 4096 ≤ a) :
    memRead nvDefault (halfErase cut nv sector) a = memRead nvDefault nv a :=
  memRead_memWriteBytes_elsewhere (by rwa [List.length_map, List.length_range])

theorem partialBytes_length_le (h : record ≠ []) : (partialBytes cut record).length ≤ record.length := by
  have := List.length_pos_iff.2 h
  simp only [partialBytes, List.length_append, List.length_take, List.length_singleton]
  omega

/-- A program that power cut off touches no byte outside its record (R169), canonical or not. -/
theorem memRead_cutProgram_elsewhere (hr : record ≠ [])
    (h : a < sector * 4096 + offset ∨ sector * 4096 + offset + record.length ≤ a) :
    memRead nvDefault (cutProgram cut nv sector offset record) a = memRead nvDefault nv a := by
  have := partialBytes_length_le (cut := cut) hr
  have := List.length_take_le 1 record
  have := List.length_pos_iff.2 hr
  simp only [cutProgram]
  split <;> exact memRead_programBytes_elsewhere (by simp only [List.length_take] at *; omega)

/-! ## What a scan finds of a program that was cut off (R167, R169) -/

theorem erasedAt_iff : erasedAt nv sector offset = true ↔ ErasedPair nv sector offset := by
  simp only [erasedAt, ErasedPair, Bool.and_eq_true, decide_eq_true_iff, beq_iff_eq, and_assoc]
  rfl

theorem leavesPartial_iff : leavesPartial nv sector offset = true ↔
    ¬ ErasedPair nv sector offset ∧ ∀ found, ¬ RecordAt nv sector offset found := by
  rw [leavesPartial, Bool.and_eq_true, Bool.not_eq_true', ← Bool.not_eq_true, erasedAt_iff, Option.isNone_iff_eq_none]
  refine and_congr_right fun programmed => ?_
  simp only [RecordAt, programmed, not_false_iff, true_and]
  exact Option.eq_none_iff_forall_ne_some

/-- An intact record begins with the two magic bytes, and its header is there (R164). -/
theorem intactRecord_magic (h : intactRecord bytes = some found) :
    12 ≤ bytes.length ∧ bytes[0]? = some 0x5D ∧ bytes[1]? = some 0x2E := by
  simp only [intactRecord] at h
  split at h
  · cases h
  · next long =>
    split at h
    · cases h
    · next magic =>
      have two : bytes.take 2 = [0x5D, 0x2E] := not_not.1 fun no => magic (.inl no)
      refine ⟨Nat.not_lt.1 long, ?_, ?_⟩
      · rw [← List.getElem?_take_of_lt (show 0 < 2 by decide), two]; rfl
      · rw [← List.getElem?_take_of_lt (show 1 < 2 by decide), two]; rfl

/-- The first byte of an intact record, alone on erased bytes, is partial. -/
theorem leavesPartial_first_byte (hi : isIntact bytes = true) (hfit : offset + bytes.length ≤ 4096) (hw : Memory.wf nvDefault nv)
    (he : ∀ i, i < bytes.length → memRead nvDefault nv (sector * 4096 + offset + i) = 0xFF) :
    leavesPartial (programBytes nv sector offset (bytes.take 1)) sector offset = true := by
  obtain ⟨long, first, -⟩ := intactRecord_magic (beq_iff_eq.1 hi)
  have one : bytes.take 1 = [0x5D] := by
    rw [List.take_one, List.head?_eq_getElem?, first]; rfl
  have at_first : memRead nvDefault (programBytes nv sector offset [0x5D]) (sector * 4096 + offset) = 0x5D := by
    rw [programBytes, sectorBytes, memRead_memWriteBytes hw, if_pos (Nat.le_refl _), Nat.sub_self]; rfl
  have at_second : memRead nvDefault (programBytes nv sector offset [0x5D]) (sector * 4096 + offset + 1) = 0xFF := by
    exact (memRead_programBytes_elsewhere (bytes := [0x5D]) (.inr (Nat.le_refl _))).trans (he 1 (by omega))
  rw [one, leavesPartial_iff]
  refine ⟨fun ⟨_, erased, _⟩ => absurd (at_first.symm.trans erased) (by decide), fun found ⟨_, record⟩ => ?_⟩
  obtain ⟨-, -, second⟩ := intactRecord_magic record
  rw [sectorTail, memSlice_getElem? (by simp only [sectorBytes]; omega), sectorBytes, at_second] at second
  exact absurd second (by decide)

theorem cutProgram_leavesPartial (hi : isIntact bytes = true) (hfit : offset + bytes.length ≤ 4096) (hw : Memory.wf nvDefault nv)
    (he : ∀ i, i < bytes.length → memRead nvDefault nv (sector * 4096 + offset + i) = 0xFF) :
    leavesPartial (cutProgram cut nv sector offset bytes) sector offset = true := by
  simp only [cutProgram]
  split
  · assumption
  · exact leavesPartial_first_byte hi hfit hw he

/-! ## The NV area after a loss of power (R185) -/

theorem cutNv_stage {f : InFlight} (he : s.store.rebuildErase = none) (hf : s.store.inFlight = some f) :
    cutNv s = cutStage s.cuts f.record s.nv f.stage := by simp only [cutNv, he, hf]

theorem cutNv_rebuildErase {k : Nat} (h : s.store.rebuildErase = some k) : cutNv s = halfErase s.cuts s.nv k := by
  rw [cutNv, h]

/-- Settles O4: each stage's cut is a write inside the work's own bytes, and a cut program leaves a partial record. -/
theorem powerLossTouchesOnlyNvWorkInProgress : Obligations.PowerLossTouchesOnlyNvWorkInProgress := by
  intro s hp
  refine ⟨losePower s, command_powered losePower hp, rfl, fun he hf => ?_, fun f sector offset he hf hst hr a ha => ?_,
    fun f victim spare x dest rest he hf hst hx a ha => ?_,
    fun f k offset bytes he hf hst hi hfit hw hblank => ?_, fun f victim spare he hf hst a ha => ?_, fun k hk a ha => ?_⟩
  · simp only [losePower, cutNv, he, hf]
  · have cut : (losePower s).nv = cutProgram s.cuts s.nv sector offset f.record :=
      (cutNv_stage he hf).trans (by rw [hst, cutStage])
    rw [cut]
    exact memRead_cutProgram_elsewhere hr ha
  · have cut : (losePower s).nv = cutProgram s.cuts s.nv spare dest
        (memSlice nvDefault s.nv (victim * sectorBytes + x.offset) x.len) :=
      (cutNv_stage he hf).trans (by rw [hst, cutStage])
    rw [cut]
    refine memRead_cutProgram_elsewhere (fun empty => ?_) (by rwa [memSlice_length])
    have := congrArg List.length empty
    rw [memSlice_length, List.length_nil] at this
    omega
  · have cut : (losePower s).nv = cutProgram s.cuts s.nv k offset bytes := by
      rw [losePower, cutNv_stage he hf]
      rcases hst with ⟨hst, rfl⟩ | ⟨v, x, rest, hst, rfl⟩ <;> rw [hst] <;> rfl
    rw [cut]
    exact leavesPartial_iff.1 (cutProgram_leavesPartial hi hfit hw hblank)
  · have cut : (losePower s).nv = halfErase s.cuts s.nv victim :=
      (cutNv_stage he hf).trans (by rw [hst, cutStage])
    rw [cut]
    exact memRead_halfErase_elsewhere ha
  · have cut : (losePower s).nv = halfErase s.cuts s.nv k := cutNv_rebuildErase hk
    rw [cut]
    exact memRead_halfErase_elsewhere ha

end Sys2Proof.Machine.SetupStore
end

section
/-! The rules the setup store's proofs share: how its queue is served, what a request that passes its arrival checks does, and how
each operation starts (R171, R173 to R181). -/

namespace Sys2Proof.Machine.SetupStore

open FrontPanel

variable {s u : State} {q : QueuedOp} {op : StoreOp} {r : Request} {cmd : Instr} {kind : Byte} {slot : Nat}
  {serve : Request → State → State} {payload rest : List Byte} {why : Reason}

/-! ## The queue (R171) -/

/-- The store can start an operation at once. -/
abbrev StoreIdle (s : State) : Prop := s.setup.loadApplied = true ∧ s.store.queue = [] ∧ s.store.inFlight = none

theorem refuseOp_store (q : QueuedOp) (why : Reason) (d : Detail) (s : State) : (refuseOp q why d s).store = s.store := by
  rw [refuseOp]; split <;> rfl

theorem copyNext_queue (victim spare : Nat) (todo : List LiveRecord) (f : InFlight) (s : State) :
    (copyNext victim spare todo f s).store.queue = s.store.queue := by cases todo <;> rfl

theorem startReclaim_queue (f : InFlight) (s : State) : (startReclaim f s).store.queue = s.store.queue := by
  simp only [startReclaim]
  split
  · split
    · rfl
    · exact copyNext_queue _ _ _ _ _
  · rw [refuseOp_store]; rfl

theorem placeRecord_queue (f : InFlight) (s : State) : (placeRecord f s).store.queue = s.store.queue := by
  simp only [placeRecord]
  split
  · rfl
  · split
    · rfl
    · exact startReclaim_queue _ _

theorem writeRecord_queue (q : QueuedOp) (record : List Byte) (s : State) :
    (writeRecord q record s).store.queue = s.store.queue := by
  rw [writeRecord]
  split
  · exact placeRecord_queue _ _
  · rw [refuseOp_store]

theorem startRecall_queue (q : QueuedOp) (slot : Nat) (s : State) : (startRecall q slot s).store.queue = s.store.queue := by
  rw [startRecall]
  split
  · rw [refuseOp_store]
  · split
    · rw [refuseOp_store]
    · rfl

/-- An operation that starts leaves the queue behind it alone. -/
theorem startOp_queue (q : QueuedOp) (s : State) : (startOp q s).store.queue = s.store.queue := by
  rw [startOp]
  split
  case h_1 => rw [startSave]; split <;> [rw [refuseOp_store]; exact writeRecord_queue _ _ _]
  case h_2 => exact startRecall_queue _ _ _
  case h_3 => split <;> [rfl; exact startRecall_queue _ _ _]
  case h_4 =>
    rw [startDelete]
    split
    · rw [refuseOp_store]
    · split <;> [rw [refuseOp_store]; exact writeRecord_queue _ _ _]
  case h_5 =>
    rw [startProtect]
    split
    · rw [refuseOp_store]
    · split
      · rfl
      · split <;> [rw [refuseOp_store]; exact writeRecord_queue _ _ _]
  case h_6 => rfl
  case h_7 =>
    rw [startExport]
    split
    · rw [refuseOp_store]
    · split <;> [rw [refuseOp_store]; rfl]
  case h_8 => rw [startImport]; split <;> [rw [refuseOp_store]; exact writeRecord_queue _ _ _]
  case h_9 => exact writeRecord_queue _ _ _

theorem setQueue_of_nil (h : s.store.queue = []) : setQueue [] s = s := by rw [← h]; rfl

/-- A store that is busy, or waits for the power-on load, starts nothing. -/
theorem serveStore_busy (h : s.store.inFlight ≠ none ∨ s.setup.loadApplied = false) : serveStore s = s := by
  rw [serveStore, if_neg]
  rw [Bool.and_eq_true, Option.isNone_iff_eq_none]
  rintro ⟨loaded, idle⟩
  rcases h with busy | early
  · exact busy idle
  · exact Bool.noConfusion (early.symm.trans loaded)

/-- An idle store starts the only operation of its queue, and nothing more. -/
theorem serveStore_one (hl : s.setup.loadApplied = true) (hf : s.store.inFlight = none) (hq : s.store.queue = [q]) :
    serveStore s = startOp q (setQueue [] s) := by
  have emptied : (startOp q (setQueue [] s)).store.queue = [] := startOp_queue q (setQueue [] s)
  rw [serveStore, if_pos (by rw [hl, hf]; rfl), hq]
  simp only [serveQueue]
  split
  · rfl
  · exact setQueue_of_nil emptied

theorem setQueue_setQueue (new old : List QueuedOp) (s : State) : setQueue new (setQueue old s) = setQueue new s := rfl

theorem serveStore_queued (h : StoreIdle s) (q : QueuedOp) : serveStore (setQueue (s.store.queue ++ [q]) s) = startOp q s := by
  obtain ⟨loaded, empty, idle⟩ := h
  rw [empty, List.nil_append, serveStore_one (s := setQueue [q] s) loaded idle rfl, setQueue_setQueue, setQueue_of_nil empty]

/-! ## A request that passes its arrival checks -/

theorem dispatch_congr {serve' : Request → State → State} (h : InHandover kind r s)
    (hs : serve r (taken s) = serve' r (taken s)) : dispatchCommand kind serve s = dispatchCommand kind serve' s := by
  rw [dispatch_inHandover h, dispatch_inHandover h, hs]

/-- A command hands over a request that has passed its arrival checks, and takes a host place as an operation. -/
structure Admitted (cmd : Instr) (op : StoreOp) (r : Request) (s : State) : Prop where
  handover : InHandover r.kind r s
  kind : opKind op = r.kind
  host : isPanelOp ⟨r.tag, op⟩ = false
  run : exec cmd s = dispatchCommand r.kind (fun r s => takePlace r op s) s

theorem admitted_of (arm : exec cmd s = dispatchCommand kind serve s) (h : InHandover kind r s) (hk : opKind op = kind)
    (hp : isPanelOp ⟨r.tag, op⟩ = false) (hs : serve r (taken s) = takePlace r op (taken s)) : Admitted cmd op r s := by
  obtain ⟨hpow, hhand, rfl⟩ := h
  exact ⟨⟨hpow, hhand, rfl⟩, hk, hp, arm.trans (dispatch_congr ⟨hpow, hhand, rfl⟩ hs)⟩

/-- The host places are taken (R171). -/
abbrev PlacesTaken (s : State) : Prop := 4 ≤ (s.store.queue.filter fun q => !isPanelOp q).length

/-- The host places are all taken: STORE_BUSY (R171). -/
theorem Admitted.full (h : Admitted cmd op r s) (hn : PlacesTaken s) :
    exec cmd s = .next (answered s (refusedReply r 6 [0, 0, 0])) :=
  request_refused (why := .storeBusy) h.run h.handover (if_pos hn)

/-- A request that finds a place while the store is busy waits in it, and nothing else happens (R171). -/
theorem Admitted.waits (h : Admitted cmd op r s) (hn : ¬ PlacesTaken s)
    (hb : s.store.inFlight ≠ none ∨ s.setup.loadApplied = false) : exec cmd s = .next { s with
      link := afterDispatch s.link, store := { s.store with queue := s.store.queue ++ [⟨r.tag, op⟩] } } := by
  have placed : takePlace r op (taken s) = setQueue (s.store.queue ++ [⟨r.tag, op⟩]) (taken s) :=
    (if_neg hn).trans (serveStore_busy hb)
  exact h.run.trans (dispatch_unanswered h.handover (u := setQueue (s.store.queue ++ [⟨r.tag, op⟩]) (taken s)) rfl placed)

/-- A request of an idle store starts at once. -/
theorem Admitted.starts (h : Admitted cmd op r s) (hi : StoreIdle s) :
    exec cmd s = dispatchCommand r.kind (fun r s => startOp ⟨r.tag, op⟩ s) s := by
  have ⟨_, empty, _⟩ := hi
  have free : ¬ PlacesTaken s := by rw [PlacesTaken, empty]; decide
  exact h.run.trans (dispatch_congr h.handover
    ((if_neg free).trans (serveStore_queued (s := taken s) hi ⟨r.tag, op⟩)))

/-- An operation refused, when it is not a panel recall, is a request refused. -/
theorem refuseOp_host (hp : isPanelOp q = false) (why : Reason) (d : Detail) (s : State) :
    refuseOp q why d s = replyRefused q.tag (opKind q.op) why d s := by
  rw [refuseOp]
  split
  · next h => rw [isPanelOp, h] at hp; cases hp
  all_goals rfl

theorem Admitted.refused (h : Admitted cmd op r s) (hi : StoreIdle s)
    (hs : startOp ⟨r.tag, op⟩ (taken s) = refuseOp ⟨r.tag, op⟩ why .none (taken s)) :
    exec cmd s = .next (answered s (refusedReply r (reasonCode why) [0, 0, 0])) := by
  rw [refuseOp_host h.host, h.kind] at hs
  exact request_refused (h.starts hi) h.handover hs

/-! ## The arrival checks (R163, R171, R173 to R181) -/

section Arrival

variable {f : Nat → State → State}

theorem withSlot_outside (h : 63 < slotOf r) : withSlot r f s = replyRefused r.tag r.kind .badValue .none s := if_pos h

theorem withSlot_inside (h : slotOf r ≤ 63) : withSlot r f s = f (slotOf r) s := if_neg (Nat.not_lt.2 h)

theorem withUserSlot_outside (h : 63 < slotOf r) : withUserSlot r f s = replyRefused r.tag r.kind .badValue .none s :=
  withSlot_outside h

theorem withUserSlot_factory (h : slotOf r < 4) :
    withUserSlot r f s = replyRefused r.tag r.kind .protectedSlot .none s :=
  (withSlot_inside (by omega)).trans (if_pos h)

theorem withUserSlot_user (h4 : 4 ≤ slotOf r) (h63 : slotOf r ≤ 63) : withUserSlot r f s = f (slotOf r) s :=
  (withSlot_inside h63).trans (if_neg (Nat.not_lt.2 h4))

end Arrival

theorem slotOf_eq (hp : r.payload = BitVec.ofNat 8 slot :: rest) (h : slot < 256) : slotOf r = slot := by
  rw [slotOf, hp, byteAt_cons_zero, BitVec.toNat_ofNat, Nat.mod_eq_of_lt h]

/-- The payload's bytes after the slot. -/
theorem byteAt_after_slot (hp : r.payload = BitVec.ofNat 8 slot :: rest) : byteAt r.payload 1 = byteAt rest 0 := by
  rw [hp]; rfl

/-- The operation a Save with these bytes after its slot asks for (R173). -/
def saveOp (slot : Nat) (rest : List Byte) (s : State) : StoreOp :=
  .save slot (byteAt rest 0 == 1) (if rest.length = 33 then some (rest.drop 1) else none) (snapshotNow (byteAt rest 0 == 1) s)

/-- The six requests whose payload begins with their slot, in hand-over, and the operation each asks for. -/
inductive SlotRequest (r : Request) (s : State) (slot : Nat) (rest : List Byte) : Instr → StoreOp → Prop
  | saves (h : InHandover 0x28 r s) : SlotRequest r s slot rest .save (saveOp slot rest s)
  | recalls (h : InHandover 0x29 r s) : SlotRequest r s slot rest .recall (.recall slot)
  | deletes (h : InHandover 0x2A r s) : SlotRequest r s slot rest .delete (.delete slot)
  | protects (h : InHandover 0x2B r s) : SlotRequest r s slot rest .protect (.protect slot (byteAt rest 0 == 1))
  | exports (h : InHandover 0x2D r s) : SlotRequest r s slot rest .exportSlot (.exportSlot slot)
  | setsPowerOn (h : InHandover 0x2F r s) : SlotRequest r s slot rest .setPowerOn (.setPowerOn slot)

/-- A slot above 63 (R163). -/
theorem SlotRequest.outside (h : SlotRequest r s slot rest cmd op) (hp : r.payload = BitVec.ofNat 8 slot :: rest)
    (hs : slot < 256) (ho : 63 < slot) : exec cmd s = .next (answered s (refusedReply r 5 [0, 0, 0])) := by
  have far : 63 < slotOf r := (slotOf_eq hp hs).symm ▸ ho
  cases h with
  | saves h => exact request_refused (serve := serveSave) rfl h (withUserSlot_outside far)
  | recalls h => exact request_refused (serve := serveRecall) rfl h (withSlot_outside far)
  | deletes h => exact request_refused (serve := serveDelete) rfl h (withUserSlot_outside far)
  | protects h => exact request_refused (serve := serveProtect) rfl h (withUserSlot_outside far)
  | exports h => exact request_refused (serve := serveExportSlot) rfl h (withSlot_outside far)
  | setsPowerOn h => exact request_refused (serve := serveSetPowerOn) rfl h (withSlot_outside far)

/-- A factory slot is not written (R163). -/
theorem SlotRequest.factory (h : SlotRequest r s slot rest cmd op) (hp : r.payload = BitVec.ofNat 8 slot :: rest)
    (hs : slot < 4) (hc : cmd = .save ∨ cmd = .delete ∨ cmd = .protect) :
    exec cmd s = .next (answered s (refusedReply r 7 [0, 0, 0])) := by
  have fixed : slotOf r < 4 := (slotOf_eq hp (by omega)).symm ▸ hs
  rcases hc with rfl | rfl | rfl
  · cases h with | saves h => exact request_refused (serve := serveSave) rfl h (withUserSlot_factory fixed)
  · cases h with | deletes h => exact request_refused (serve := serveDelete) rfl h (withUserSlot_factory fixed)
  · cases h with | protects h => exact request_refused (serve := serveProtect) rfl h (withUserSlot_factory fixed)

/-- An option or a flag above 1 (R173, R177). -/
theorem SlotRequest.badFlag (h : SlotRequest r s slot rest cmd op) (hp : r.payload = BitVec.ofNat 8 slot :: rest)
    (h4 : 4 ≤ slot) (h63 : slot ≤ 63) (hc : cmd = .save ∨ cmd = .protect) (hb : 1 < byteAt rest 0) :
    exec cmd s = .next (answered s (refusedReply r 5 [0, 0, 0])) := by
  have at_slot := slotOf_eq hp (by omega)
  rw [← byteAt_after_slot hp] at hb
  rcases hc with rfl | rfl
  · cases h with
    | saves h =>
      exact request_refused (serve := serveSave) (why := .badValue) rfl h
        ((withUserSlot_user (at_slot ▸ h4) (at_slot ▸ h63)).trans (if_pos hb))
  · cases h with
    | protects h =>
      exact request_refused (serve := serveProtect) (why := .badValue) rfl h
        ((withUserSlot_user (at_slot ▸ h4) (at_slot ▸ h63)).trans (if_pos hb))

theorem serveSave_takes (hp : r.payload = BitVec.ofNat 8 slot :: rest) (h4 : 4 ≤ slot) (h63 : slot ≤ 63)
    (hb : byteAt rest 0 ≤ 1) : serveSave r s = takePlace r (saveOp slot rest s) s := by
  have at_slot := slotOf_eq hp (by omega)
  have label : (if r.payload.length = 34 then some (r.payload.drop 2) else none) =
      if rest.length = 33 then some (rest.drop 1) else none := by
    rw [hp]; exact if_congr (by rw [List.length_cons]; omega) rfl rfl
  rw [serveSave, withUserSlot_user (at_slot.symm ▸ h4) (at_slot.symm ▸ h63)]
  simp only [byteAt_after_slot hp, if_neg (Nat.not_lt.2 hb), at_slot, label, saveOp]

theorem serveProtect_takes (hp : r.payload = BitVec.ofNat 8 slot :: rest) (h4 : 4 ≤ slot) (h63 : slot ≤ 63)
    (hb : byteAt rest 0 ≤ 1) : serveProtect r s = takePlace r (.protect slot (byteAt rest 0 == 1)) s := by
  have at_slot := slotOf_eq hp (by omega)
  rw [serveProtect, withUserSlot_user (at_slot.symm ▸ h4) (at_slot.symm ▸ h63)]
  simp only [byteAt_after_slot hp, if_neg (Nat.not_lt.2 hb), at_slot]

/-- A request on a user slot whose option or flag is 0 or 1 passes its arrival checks. -/
theorem SlotRequest.admitted (h : SlotRequest r s slot rest cmd op) (hp : r.payload = BitVec.ofNat 8 slot :: rest)
    (h4 : 4 ≤ slot) (h63 : slot ≤ 63) (hb : byteAt rest 0 ≤ 1) : Admitted cmd op r s := by
  have at_slot := slotOf_eq hp (by omega)
  have inside : ∀ f u, withSlot r f u = f slot u := fun f u => at_slot ▸ withSlot_inside (at_slot.symm ▸ h63)
  have user : ∀ f u, withUserSlot r f u = f slot u := fun f u =>
    at_slot ▸ withUserSlot_user (at_slot.symm ▸ h4) (at_slot.symm ▸ h63)
  cases h with
  | saves h => exact admitted_of (serve := serveSave) rfl h rfl rfl (serveSave_takes hp h4 h63 hb)
  | recalls h => exact admitted_of (serve := serveRecall) rfl h rfl rfl (inside _ _)
  | deletes h => exact admitted_of (serve := serveDelete) rfl h rfl rfl (user _ _)
  | protects h => exact admitted_of (serve := serveProtect) rfl h rfl rfl (serveProtect_takes hp h4 h63 hb)
  | exports h => exact admitted_of (serve := serveExportSlot) rfl h rfl rfl (inside _ _)
  | setsPowerOn h => exact admitted_of (serve := serveSetPowerOn) rfl h rfl rfl (inside _ _)

/-- A SetPowerOn may name any slot, factory slots too (R181). -/
theorem admitted_setPowerOn (h : InHandover 0x2F r s) (hp : r.payload = BitVec.ofNat 8 slot :: rest) (h63 : slot ≤ 63) :
    Admitted .setPowerOn (.setPowerOn slot) r s := by
  have at_slot := slotOf_eq hp (by omega)
  exact admitted_of (serve := serveSetPowerOn) rfl h rfl rfl
    ((withSlot_inside (at_slot.symm ▸ h63)).trans (by rw [at_slot]))

/-- A ListSlots of 1 to 32 slots that are there (R178). -/
theorem admitted_listSlots {n : Nat} (h : InHandover 0x2C r s) (hp : r.payload = [BitVec.ofNat 8 slot, BitVec.ofNat 8 n])
    (h1 : 1 ≤ n) (h32 : n ≤ 32) (hn : slot + n ≤ 64) : Admitted .listSlots (.listSlots slot n) r s := by
  have at_slot := slotOf_eq hp (by omega)
  have count : byteAt r.payload 1 = n := by rw [hp]; exact Nat.mod_eq_of_lt (by omega)
  refine admitted_of (serve := serveListSlots) rfl h rfl rfl ?_
  simp only [serveListSlots, count, at_slot]
  rw [if_neg (by omega)]

/-- The record check of an ImportSlot (R180). -/
theorem importCheck_passes (hi : isIntact payload = true) (hk : recKind payload = 1) (h63 : recSlot payload ≤ 63) :
    ¬ (isIntact payload = false ∨ recKind payload ≠ 1 ∨ 63 < recSlot payload) := by
  rintro (broken | kind | far)
  · exact Bool.noConfusion (broken.symm.trans hi)
  · exact kind hk
  · exact Nat.not_lt.2 h63 far

/-- An ImportSlot of an intact Setup record of a user slot (R180). -/
theorem admitted_importSlot (h : InHandover 0x2E r s) (hi : isIntact r.payload = true) (hk : recKind r.payload = 1)
    (h4 : 4 ≤ recSlot r.payload) (h63 : recSlot r.payload ≤ 63) : Admitted .importSlot (.importSlot r.payload) r s := by
  refine admitted_of (serve := serveImportSlot) rfl h rfl rfl ?_
  rw [serveImportSlot, if_neg (importCheck_passes hi hk h63), if_neg (Nat.not_lt.2 h4)]

/-! ## The start of an operation (R173 to R181) -/

theorem canWrite_iff {st : Store} : canWrite st = true ↔
    (findSector (inState .spare) st.sectors).isSome = true ∧ st.seqCounter ≤ 4294967295 := by
  rw [canWrite, Bool.and_eq_true, decide_eq_true_iff]; rfl

section Start

variable {loc : RecordLoc} {seq len : Nat} {prot hm flag : Bool} {lb label : Option (List Byte)} {record : List Byte}
  {deletion : Option (Nat × Nat)} {snapshot : List Int × Option (List Zone)}

theorem writeRecord_refused (h : canWrite s.store = false) : writeRecord q record s = refuseOp q .protectedSlot .none s :=
  if_neg (by rw [h]; decide)

theorem startSave_protected (h : slotProtected s slot = true) :
    startSave q slot label snapshot s = refuseOp q .protectedSlot .none s := if_pos h

theorem startSave_writes (h : slotProtected s slot = false) : startSave q slot label snapshot s =
    writeRecord q (setupRecord slot s.store.seqCounter false snapshot.1 snapshot.2 label) s := if_neg (by rw [h]; decide)

theorem slotProtected_present (h : slotEntry s slot = .present loc seq len prot hm lb) : slotProtected s slot = prot := by
  rw [slotProtected, h]

theorem slotProtected_empty (h : slotEntry s slot = .empty deletion) : slotProtected s slot = false := by
  rw [slotProtected, h]

theorem startDelete_empty (h : slotEntry s slot = .empty deletion) :
    startDelete q slot s = refuseOp q .emptySlot .none s := by rw [startDelete, h]

theorem startDelete_protected (h : slotProtected s slot = true) :
    startDelete q slot s = refuseOp q .protectedSlot .none s := by
  rw [startDelete]
  split
  · next e => rw [slotProtected_empty e] at h; cases h
  · next e => rw [slotProtected_present e] at h; exact if_pos h

theorem startDelete_writes (h : slotEntry s slot = .present loc seq len false hm lb) :
    startDelete q slot s = writeRecord q (deletionRecord slot s.store.seqCounter) s := by rw [startDelete, h]; rfl

theorem startProtect_empty (h : slotEntry s slot = .empty deletion) :
    startProtect q slot flag s = refuseOp q .emptySlot .none s := by rw [startProtect, h]

theorem startProtect_same (h : slotEntry s slot = .present loc seq len flag hm lb) :
    startProtect q slot flag s = replyDone q.tag (leBytes 4 seq ++ [0]) s := by rw [startProtect, h]; exact if_pos rfl

theorem startProtect_bad (h : slotEntry s slot = .present loc seq len prot hm lb) (hf : prot ≠ flag)
    (hr : readRecord s loc = none) : startProtect q slot flag s = refuseOp q .badRecord .none s := by
  rw [startProtect, h]; dsimp only; rw [if_neg hf, hr]

theorem startProtect_writes (h : slotEntry s slot = .present loc seq len prot hm lb) (hf : prot ≠ flag)
    (hr : readRecord s loc = some record) : startProtect q slot flag s =
      writeRecord q (restamp record (recFlags record / 2 * 2 + flag.toNat) s.store.seqCounter) s := by
  rw [startProtect, h]; dsimp only; rw [if_neg hf, hr]; rfl

theorem startExport_empty (h : slotEntry s slot = .empty deletion) :
    startExport q slot s = refuseOp q .emptySlot .none s := by rw [startExport, h]

theorem startExport_bad (h : slotEntry s slot = .present loc seq len prot hm lb) (hr : readRecord s loc = none) :
    startExport q slot s = refuseOp q .badRecord .none s := by rw [startExport, h]; dsimp only; rw [hr]

theorem startRecall_empty (h : slotEntry s slot = .empty deletion) :
    startRecall q slot s = refuseOp q .emptySlot .none s := by rw [startRecall, h]

theorem startRecall_bad (h : slotEntry s slot = .present loc seq len prot hm lb) (hr : readRecord s loc = none) :
    startRecall q slot s = refuseOp q .badRecord .none s := by rw [startRecall, h]; dsimp only; rw [hr]

/-- A recall that reads its record hands its change set on (R174). -/
theorem startRecall_reads (h : slotEntry s slot = .present loc seq len prot hm lb) (hr : readRecord s loc = some record) :
    startRecall q slot s = setInFlight (some ⟨q, [], false, false, .handed (recChangeSet record)⟩) s := by
  rw [startRecall, h]; dsimp only; rw [hr]

theorem startImport_protected (h : slotProtected s (recSlot record) = true) :
    startImport q record s = refuseOp q .protectedSlot .none s := if_pos h

theorem startImport_writes (h : slotProtected s (recSlot record) = false) : startImport q record s =
    writeRecord q (restamp record (recFlags record) s.store.seqCounter) s := if_neg (by rw [h]; decide)

end Start

end Sys2Proof.Machine.SetupStore
end

section
/-! What the setup store refuses: on arrival by the payload, for want of a place, and at its start by the slot's entry, its record,
or for want of a sequence or a Spare (R163, R165, R168, R171, R173 to R181). -/

namespace Sys2Proof.Machine.SetupStore

open FrontPanel

variable {s : State} {op : StoreOp} {r : Request} {cmd : Instr} {slot : Nat} {rest : List Byte}

section Refusals

variable (h : SlotRequest r s slot rest cmd op) (ha : Admitted cmd op r s) (hi : StoreIdle s)
include h ha hi

/-- A protected slot is neither written nor deleted (R173, R176). -/
theorem SlotRequest.protectedSlot (hp : slotProtected s slot = true) (hc : cmd = .save ∨ cmd = .delete) :
    exec cmd s = .next (answered s (refusedReply r 7 [0, 0, 0])) := by
  rcases hc with rfl | rfl
  · cases h with | saves h => exact ha.refused hi (startSave_protected (s := taken s) hp)
  · cases h with | deletes h => exact ha.refused hi (startDelete_protected (s := taken s) hp)

/-- An empty slot is not recalled, deleted, protected or exported (R174, R176, R177, R179). -/
theorem SlotRequest.emptySlot {d : Option (Nat × Nat)} (he : slotEntry s slot = .empty d)
    (hc : cmd = .recall ∨ cmd = .delete ∨ cmd = .protect ∨ cmd = .exportSlot) :
    exec cmd s = .next (answered s (refusedReply r 8 [0, 0, 0])) := by
  rcases hc with rfl | rfl | rfl | rfl
  · cases h with | recalls h => exact ha.refused hi (startRecall_empty (s := taken s) he)
  · cases h with | deletes h => exact ha.refused hi (startDelete_empty (s := taken s) he)
  · cases h with | protects h => exact ha.refused hi (startProtect_empty (s := taken s) he)
  · cases h with | exports h => exact ha.refused hi (startExport_empty (s := taken s) he)

/-- A record that is no longer intact is not recalled, exported or copied (R174, R177, R179). -/
theorem SlotRequest.badRecord {loc : RecordLoc} {seq len : Nat} {prot hm : Bool} {lb : Option (List Byte)}
    (he : slotEntry s slot = .present loc seq len prot hm lb) (hr : readRecord s loc = none)
    (hc : cmd = .recall ∨ cmd = .exportSlot ∨ cmd = .protect ∧ decide (byteAt rest 0 = 1) ≠ prot) :
    exec cmd s = .next (answered s (refusedReply r 9 [0, 0, 0])) := by
  rcases hc with rfl | rfl | ⟨rfl, hf⟩
  · cases h with | recalls h => exact ha.refused hi (startRecall_bad (s := taken s) he hr)
  · cases h with | exports h => exact ha.refused hi (startExport_bad (s := taken s) he hr)
  · cases h with | protects h => exact ha.refused hi (startProtect_bad (s := taken s) he hf.symm hr)

/-- With no Spare, or the sequence numbers used up, no record is written (R165, R168): a Save or a SetPowerOn. -/
theorem SlotRequest.noRoom (hw : canWrite s.store = false) (hc : cmd = .save ∨ cmd = .setPowerOn) :
    exec cmd s = .next (answered s (refusedReply r 7 [0, 0, 0])) := by
  rcases hc with rfl | rfl
  · cases hp : slotProtected s slot with
    | true => exact h.protectedSlot ha hi hp (.inl rfl)
    | false =>
      cases h with
      | saves h => exact ha.refused hi ((startSave_writes (s := taken s) hp).trans (writeRecord_refused hw))
  · cases h with | setsPowerOn h => exact ha.refused hi (writeRecord_refused (s := taken s) hw)

/-- The same for a Delete, and for a Protect that would write a copy. -/
theorem SlotRequest.noRoom_present {loc : RecordLoc} {seq len : Nat} {prot hm : Bool} {lb : Option (List Byte)}
    (hw : canWrite s.store = false) (he : slotEntry s slot = .present loc seq len prot hm lb)
    (hc : cmd = .delete ∨ cmd = .protect ∧ decide (byteAt rest 0 = 1) ≠ prot ∧ readRecord s loc ≠ none) :
    exec cmd s = .next (answered s (refusedReply r 7 [0, 0, 0])) := by
  rcases hc with rfl | ⟨rfl, hf, hr⟩
  · cases prot with
    | true => exact h.protectedSlot ha hi (slotProtected_present he) (.inr rfl)
    | false =>
      cases h with
      | deletes h => exact ha.refused hi ((startDelete_writes (s := taken s) he).trans (writeRecord_refused hw))
  · obtain ⟨old, read⟩ := Option.ne_none_iff_exists'.1 hr
    cases h with
    | protects h =>
      exact ha.refused hi ((startProtect_writes (s := taken s) he hf.symm read).trans (writeRecord_refused hw))

end Refusals

/-- No Spare is left, or no sequence (R165, R168). -/
theorem canWrite_eq_false (h : findSector (inState .spare) s.store.sectors = none ∨ 4294967295 < s.store.seqCounter) :
    canWrite s.store = false := by
  rw [← Bool.not_eq_true, canWrite_iff]
  rintro ⟨spare, seq⟩
  rcases h with none_spare | used_up
  · rw [none_spare] at spare; cases spare
  · exact absurd seq (Nat.not_le.2 used_up)

/-! ## ImportSlot (R180) -/

theorem importSlot_badRecord (h : InHandover 0x2E r s)
    (hb : isIntact r.payload = false ∨ recKind r.payload ≠ 1 ∨ 63 < recSlot r.payload) :
    exec .importSlot s = .next (answered s (refusedReply r 9 [0, 0, 0])) :=
  request_refused (serve := serveImportSlot) (why := .badRecord) rfl h (if_pos hb)

theorem importSlot_factory (h : InHandover 0x2E r s) (hi : isIntact r.payload = true) (hk : recKind r.payload = 1)
    (h4 : recSlot r.payload < 4) : exec .importSlot s = .next (answered s (refusedReply r 7 [0, 0, 0])) := by
  exact request_refused (serve := serveImportSlot) (why := .protectedSlot) rfl h 
    ((if_neg (importCheck_passes hi hk (by omega))).trans (if_pos h4))

theorem importSlot_notWritten (ha : Admitted .importSlot (.importSlot r.payload) r s) (hi : StoreIdle s)
    (h : slotProtected s (recSlot r.payload) = true ∨ canWrite s.store = false) :
    exec .importSlot s = .next (answered s (refusedReply r 7 [0, 0, 0])) := by
  cases hp : slotProtected s (recSlot r.payload) with
  | true => exact ha.refused hi (startImport_protected (s := taken s) hp)
  | false =>
    have full : canWrite s.store = false := h.resolve_left (by rw [hp]; decide)
    exact ha.refused hi ((startImport_writes (s := taken s) hp).trans (writeRecord_refused full))

/-- Settles O51: the arrival checks refuse by the payload, a request that passes them finds no place or is refused at its
start. -/
theorem storeRequestsAreRefused : Obligations.StoreRequestsAreRefused := by
  refine ⟨fun r s cmd slot rest out hout h256 hp hreq => ?_, fun r s out hr hout => ?_⟩ <;> subst hout
  · obtain ⟨op, h⟩ : ∃ op, SlotRequest r s slot rest cmd op := by
      rcases hreq with ⟨h, rfl, -⟩ | ⟨h, rfl, -⟩ | ⟨h, rfl, -⟩ | ⟨h, rfl, -⟩ | ⟨h, rfl, -⟩ | ⟨h, rfl, -⟩
      exacts [⟨_, .saves h⟩, ⟨_, .recalls h⟩, ⟨_, .deletes h⟩, ⟨_, .protects h⟩, ⟨_, .exports h⟩, ⟨_, .setsPowerOn h⟩]
    refine ⟨h.outside hp h256, h.factory hp, h.badFlag hp, fun h4 h63 hb hfull => (h.admitted hp h4 h63 hb).full hfull,
      fun h4 h63 hb hl hq hf => ?_⟩
    have ha := h.admitted hp h4 h63 hb
    have idle : StoreIdle s := ⟨hl, hq, hf⟩
    exact ⟨h.protectedSlot ha idle, fun _ => h.emptySlot ha idle, fun _ _ _ _ _ _ => h.badRecord ha idle, fun none_left =>
      ⟨h.noRoom ha idle (canWrite_eq_false none_left),
        fun _ _ _ _ _ _ => h.noRoom_present ha idle (canWrite_eq_false none_left)⟩⟩
  · refine ⟨importSlot_badRecord hr, fun hi hk => ⟨importSlot_factory hr hi hk, fun h4 h63 => ?_⟩⟩
    have ha := admitted_importSlot hr hi hk h4 h63
    exact ⟨ha.full, fun hl hq hf not_written =>
      importSlot_notWritten ha ⟨hl, hq, hf⟩ (not_written.imp_right canWrite_eq_false)⟩

end Sys2Proof.Machine.SetupStore
end

section
/-! Where a record goes: the tables' searches, the victim of a reclaim and its live records, and the three places that a record can
be programmed from (R166, R169, R170). -/

namespace Sys2Proof.Machine.SetupStore

variable {s : State} {sectors : List Sector} {st : SectorState} {row : Sector} {f : InFlight} {i j k n v : Nat}
  {x : LiveRecord}

/-! ## The sector table -/

theorem sectorRow_set_self (h : k < sectors.length) : sectorRow (sectors.set k row) k = row := by
  rw [sectorRow, List.getD_eq_getElem?_getD, List.getElem?_set_self h, Option.getD_some]

theorem sectorRow_set_ne (h : k ≠ j) : sectorRow (sectors.set k row) j = sectorRow sectors j := by
  rw [sectorRow, sectorRow, List.getD_eq_getElem?_getD, List.getD_eq_getElem?_getD, List.getElem?_set_ne h]

theorem inState_iff : inState st row = true ↔ row.state = st := beq_iff_eq

/-- The model's search finds the lowest-numbered sector in a state, or none. -/
theorem findSector_eq_of_isFirst : ∀ {o : Option Nat}, IsFirst st sectors o → findSector (inState st) sectors = o
  | some k, ⟨hk, at_k, before⟩ => by
    refine List.find?_range_eq_some.2 ⟨inState_iff.2 at_k, List.mem_range.2 hk, fun j hj => ?_⟩
    rw [Bool.not_eq_true', ← Bool.not_eq_true, inState_iff]
    exact before j hj
  | none, nowhere => by
    refine List.find?_eq_none.2 fun j hj => ?_
    rw [inState_iff]
    exact nowhere j (List.mem_range.1 hj)

/-! ## The victim (R170) -/

/-- One sector compared with the best victim so far. -/
def betterVictim (sectors : List Sector) (best : Option Nat) (k : Nat) : Option Nat :=
  if inState .full (sectorRow sectors k) then
    match best with
    | some b => if (sectorRow sectors k).live < (sectorRow sectors b).live then some k else some b
    | none => some k
  else best

theorem victimOf_eq (sectors : List Sector) :
    victimOf sectors = (List.range sectors.length).foldl (betterVictim sectors) none := rfl

/-- A sector is no worse a victim than another: fewer live bytes, or as many and no higher a number. -/
def NoWorse (sectors : List Sector) (b k : Nat) : Prop :=
  (sectorRow sectors b).live < (sectorRow sectors k).live ∨
    (sectorRow sectors b).live = (sectorRow sectors k).live ∧ b ≤ k

/-- The victim among the first `n` sectors, or none when none of them is Full. -/
def VictimBelow (sectors : List Sector) (n : Nat) : Option Nat → Prop
  | none => ∀ k, k < n → (sectorRow sectors k).state ≠ .full
  | some b => b < n ∧ (sectorRow sectors b).state = .full ∧
      ∀ k, k < n → (sectorRow sectors k).state = .full → NoWorse sectors b k

theorem NoWorse.trans {a b c : Nat} (h : NoWorse sectors a b) (k : NoWorse sectors b c) : NoWorse sectors a c := by
  unfold NoWorse at *; omega

theorem noWorse_self (k : Nat) : NoWorse sectors k k := .inr ⟨rfl, Nat.le_refl k⟩

theorem betterVictim_below {best : Option Nat} (h : VictimBelow sectors n best) :
    VictimBelow sectors (n + 1) (betterVictim sectors best n) := by
  unfold betterVictim
  split
  · next full =>
    have n_full := inState_iff.1 full
    cases best with
    | none =>
      exact ⟨Nat.lt_succ_self n, n_full, Nat.forall_lt_succ_right.2
        ⟨fun k hk is_full => absurd is_full (h k hk), fun _ => noWorse_self n⟩⟩
    | some b =>
      obtain ⟨hb, b_full, least⟩ := h
      dsimp only
      split
      · next fewer =>
        exact ⟨Nat.lt_succ_self n, n_full, Nat.forall_lt_succ_right.2
          ⟨fun k hk is_full => .trans (.inl fewer) (least k hk is_full), fun _ => noWorse_self n⟩⟩
      · next no_fewer =>
        have b_first : NoWorse sectors b n := by unfold NoWorse; omega
        exact ⟨Nat.lt_succ_of_lt hb, b_full, Nat.forall_lt_succ_right.2 ⟨least, fun _ => b_first⟩⟩
  · next full =>
    have n_not_full := mt inState_iff.2 full
    cases best with
    | none => exact Nat.forall_lt_succ_right.2 ⟨h, n_not_full⟩
    | some b =>
      obtain ⟨hb, b_full, least⟩ := h
      exact ⟨Nat.lt_succ_of_lt hb, b_full, Nat.forall_lt_succ_right.2 ⟨least, fun is_full => absurd is_full n_not_full⟩⟩

theorem victimBelow_foldl (sectors : List Sector) (n : Nat) :
    VictimBelow sectors n ((List.range n).foldl (betterVictim sectors) none) := by
  induction n with
  | zero => exact fun k hk => absurd hk (Nat.not_lt_zero k)
  | succ n ih => rw [List.range_succ, List.foldl_append]; exact betterVictim_below ih

theorem victimOf_eq_of_isVictim (h : IsVictim sectors v) : victimOf sectors = some v := by
  obtain ⟨hv, full, least⟩ := h
  have below := victimBelow_foldl sectors sectors.length
  rw [victimOf_eq]
  cases best : (List.range sectors.length).foldl (betterVictim sectors) none with
  | none => rw [best] at below; exact absurd full (below v hv)
  | some b =>
    rw [best] at below
    obtain ⟨hb, b_full, b_least⟩ := below
    have one_way := b_least v hv full
    have other_way := least b hb b_full
    unfold NoWorse at one_way
    rw [Option.some.injEq]
    omega

/-! ## The live records of a sector (R166, R170) -/

/-- In rising offset. -/
abbrev Rising (l : List LiveRecord) : Prop := l.Pairwise fun a b => a.offset ≤ b.offset

theorem mem_insertLive {r : LiveRecord} {l : List LiveRecord} : x ∈ insertLive r l ↔ x = r ∨ x ∈ l := by
  induction l with
  | nil => exact List.mem_cons
  | cons y ys ih =>
    rw [insertLive]
    split
    · exact List.mem_cons
    · rw [List.mem_cons, ih, List.mem_cons]; tauto

theorem insertLive_rising {r : LiveRecord} {l : List LiveRecord} (h : Rising l) : Rising (insertLive r l) := by
  induction l with
  | nil => exact List.pairwise_singleton _ _
  | cons y ys ih =>
    obtain ⟨above, rising⟩ := List.pairwise_cons.1 h
    rw [insertLive]
    split
    · next le =>
      refine List.pairwise_cons.2 ⟨fun z hz => ?_, h⟩
      obtain rfl | hz := List.mem_cons.1 hz
      · exact le
      · exact Nat.le_trans le (above z hz)
    · next gt =>
      refine List.pairwise_cons.2 ⟨fun z hz => ?_, ih rising⟩
      obtain rfl | hz := mem_insertLive.1 hz
      · exact Nat.le_of_not_le gt
      · exact above z hz

theorem foldl_insertLive (l : List (Nat × LiveRecord)) : ∀ {acc : List LiveRecord}, Rising acc →
    Rising (l.foldl (fun acc p => insertLive p.2 acc) acc) ∧
      ∀ x, x ∈ l.foldl (fun acc p => insertLive p.2 acc) acc ↔ x ∈ acc ∨ ∃ p ∈ l, p.2 = x := by
  induction l with
  | nil => exact fun h => ⟨h, fun x => by simp⟩
  | cons p ps ih =>
    intro acc h
    obtain ⟨rising, mem⟩ := ih (insertLive_rising (r := p.2) h)
    refine ⟨rising, fun x => (mem x).trans ?_⟩
    rw [mem_insertLive, List.exists_mem_cons_iff, eq_comm (a := x)]
    tauto

theorem liveIn_rising (st : Store) (v : Nat) : Rising (liveIn st v) := (foldl_insertLive _ List.Pairwise.nil).1

/-- The live records of a sector: those the slot table and the power-on choice refer to (R166). -/
theorem mem_liveIn {st : Store} : x ∈ liveIn st v ↔
    (∃ e ∈ st.slots, (v, x) ∈ entryLive e) ∨ st.powerOnLoc = some (v, x.offset) ∧ x.len = 17 := by
  have in_all : x ∈ liveIn st v ↔ (v, x) ∈ liveRecords st := by
    rw [liveIn, (foldl_insertLive _ List.Pairwise.nil).2]
    constructor
    · rintro (none_yet | ⟨⟨a, y⟩, hp, rfl⟩)
      · cases none_yet
      · obtain ⟨mem, at_v⟩ := List.mem_filter.1 hp
        exact beq_iff_eq.1 at_v ▸ mem
    · exact fun mem => .inr ⟨(v, x), List.mem_filter.2 ⟨mem, beq_self_eq_true v⟩, rfl⟩
  have of_choice : ∀ o : Option (Nat × Nat), ((v, x) ∈ match o with
      | some (sector, offset) => [(sector, (⟨offset, 17⟩ : LiveRecord))]
      | none => []) ↔ o = some (v, x.offset) ∧ x.len = 17 := by
    rintro (_ | ⟨a, o⟩)
    · simp
    · obtain ⟨offset, len⟩ := x
      simp only [List.mem_singleton, Prod.mk.injEq, LiveRecord.mk.injEq, Option.some.injEq]
      constructor
      · rintro ⟨rfl, rfl, rfl⟩; exact ⟨⟨rfl, rfl⟩, rfl⟩
      · rintro ⟨⟨rfl, rfl⟩, rfl⟩; exact ⟨rfl, rfl, rfl⟩
  rw [in_all, liveRecords, List.mem_append, List.mem_flatMap]
  exact or_congr_right (of_choice _)

/-! ## The NV work of a record (R169, R170) -/

/-- An operation is in flight, with the sector table as given. -/
def nvWork (sectors : List Sector) (f : InFlight) (s : State) : State :=
  setStore { s.store with sectors := sectors, inFlight := some f } s

/-- The Active sector, and the state of the table once a record has not fitted in it. -/
def activeFull (active : Option Nat) (sectors : List Sector) : List Sector :=
  match active with
  | some k => sectors.set k { sectorRow sectors k with state := .full }
  | none => sectors

/-- The Active sector, when the record fits in it. -/
def roomFor (f : InFlight) (s : State) : Option Nat :=
  (findSector (inState .active) s.store.sectors).filter
    fun k => (sectorRow s.store.sectors k).used + f.record.length ≤ sectorBytes

theorem roomFor_fits (ha : IsFirst .active s.store.sectors (some k))
    (fits : (sectorRow s.store.sectors k).used + f.record.length ≤ 4096) : roomFor f s = some k := by
  rw [roomFor, findSector_eq_of_isFirst ha]; exact if_pos (decide_eq_true fits)

theorem roomFor_full {active : Option Nat} (ha : IsFirst .active s.store.sectors active)
    (no_fit : ∀ k, active = some k → 4096 < (sectorRow s.store.sectors k).used + f.record.length) :
    roomFor f s = none := by
  rw [roomFor, findSector_eq_of_isFirst ha]
  cases active with
  | none => rfl
  | some k => exact if_neg (by rw [decide_eq_true_iff]; exact Nat.not_le.2 (no_fit k rfl))

/-- A record that fits is programmed at the end of the Active sector. -/
theorem placeRecord_fits (h : roomFor f s = some k) : placeRecord f s = programAt k f s := by
  rw [roomFor] at h
  simp only [placeRecord, h]

theorem programAt_eq (k : Nat) (f : InFlight) (s : State) :
    programAt k f s = nvWork (s.store.sectors.set k { sectorRow s.store.sectors k with
        used := (sectorRow s.store.sectors k).used + f.record.length })
      { f with stage := .programming k (sectorRow s.store.sectors k).used } s := rfl

theorem programAt_row_self (hk : k < s.store.sectors.length) (h : sectorRow s.store.sectors k = row) :
    sectorRow (programAt k f s).store.sectors k = { row with used := row.used + f.record.length } :=
  h ▸ sectorRow_set_self hk

theorem programAt_row_ne (h : k ≠ j) : sectorRow (programAt k f s).store.sectors j = sectorRow s.store.sectors j :=
  sectorRow_set_ne h

theorem programAt_inFlight (h : sectorRow s.store.sectors k = row) :
    (programAt k f s).store.inFlight = some { f with stage := .programming k row.used } := h ▸ rfl

/-- What becomes of a record that does not fit, over the sector table with the Active sector made Full. -/
def placeElsewhere (sectors : List Sector) (f : InFlight) (s : State) : State :=
  match findSector (inState .erased) sectors with
  | some k => programAt k f (setStore { s.store with sectors := sectors.set k ⟨.active, 0, 0⟩ } s)
  | none => startReclaim f (setStore { s.store with sectors := sectors } s)

theorem placeRecord_elsewhere {active : Option Nat} (ha : IsFirst .active s.store.sectors active)
    (hroom : roomFor f s = none) :
    placeRecord f s = placeElsewhere (activeFull active s.store.sectors) f s := by
  rw [roomFor] at hroom
  simp only [placeRecord, hroom]
  rw [findSector_eq_of_isFirst ha]
  cases active <;> rfl

/-- An Erased sector becomes Active, and the record is programmed at its start. -/
theorem placeElsewhere_opens (h : IsFirst .erased sectors (some k)) : placeElsewhere sectors f s =
    nvWork (sectors.set k ⟨.active, f.record.length, 0⟩) { f with stage := .programming k 0 } s := by
  simp only [placeElsewhere, findSector_eq_of_isFirst h, programAt, modifySector, setStore_store, sectorRow_set_self h.1,
    List.set_set, Nat.zero_add]
  rfl

/-- With no Erased sector a reclaim begins. -/
theorem placeElsewhere_reclaims (h : IsFirst .erased sectors none) :
    placeElsewhere sectors f s = startReclaim f (setStore { s.store with sectors := sectors } s) := by
  simp only [placeElsewhere, findSector_eq_of_isFirst h]

/-- A reclaim of a victim with no live record erases it (R170). -/
theorem placeElsewhere_erases (he : IsFirst .erased sectors none) (hs : IsFirst .spare sectors (some k))
    (hv : IsVictim sectors v) (hl : liveIn s.store v = []) : placeElsewhere sectors f s =
      nvWork sectors { f with reclaimed := true, stage := .erasing v none } s := by
  have live : liveIn { s.store with sectors := sectors } v = [] := hl
  rw [placeElsewhere_reclaims he]
  simp only [startReclaim, setStore_store, victimOf_eq_of_isVictim hv, findSector_eq_of_isFirst hs, live]
  rfl

/-- Any other copies its first live record to the end of the Spare (R170). -/
theorem placeElsewhere_copies {xs : List LiveRecord} (he : IsFirst .erased sectors none)
    (hs : IsFirst .spare sectors (some k)) (hv : IsVictim sectors v) (hl : liveIn s.store v = x :: xs) :
    placeElsewhere sectors f s = nvWork (sectors.set k { sectorRow sectors k with
        used := (sectorRow sectors k).used + x.len })
      { f with reclaimed := true, stage := .copying v k x (sectorRow sectors k).used xs } s := by
  have live : liveIn { s.store with sectors := sectors } v = x :: xs := hl
  rw [placeElsewhere_reclaims he]
  simp only [startReclaim, setStore_store, victimOf_eq_of_isVictim hv, findSector_eq_of_isFirst hs, live]
  rfl

end Sys2Proof.Machine.SetupStore
end

section
/-! The requests that write a record: what an idle store begins for each of them, and the places of those that wait (R165, R169 to
R173, R176, R177, R180, R181). -/

namespace Sys2Proof.Machine.SetupStore

open FrontPanel

variable {s : State} {op : StoreOp} {r : Request} {cmd : Instr} {slot n : Nat} {rest record : List Byte}
  {label : Option (List Byte)} {sectors : List Sector} {f : InFlight}

/-! ## The start of the NV work (R169, R170) -/

/-- The record that a request which starts at once hands to its NV work. -/
def newWrite (tag : Byte) (op : StoreOp) (record : List Byte) : InFlight :=
  ⟨⟨tag, op⟩, record, false, false, .programming 0 0⟩

/-- The state once the owner has served the request in hand-over: the next hand-over has begun. -/
def dispatched (u : State) : State := setLink (beginHandover u.link) u

theorem dispatched_nvWork (sectors : List Sector) (f : InFlight) (s : State) :
    dispatched (nvWork sectors f (taken s)) = inStage sectors f s := by
  have link : beginHandover (taken s).link = afterDispatch s.link :=
    (beginHandover_of_none rfl).trans (afterDispatch_handover s.link none)
  show setLink (beginHandover (taken s).link) (nvWork sectors f (taken s)) = _
  rw [link]; rfl

/-- Placing the record of the request in hand-over is what R169 and R170 say of the start of its NV work. -/
theorem placeRecord_beginsWriting (tag : Byte) (op : StoreOp) (record : List Byte) (s : State) :
    BeginsWriting tag op record s (dispatched (placeRecord (newWrite tag op record) (taken s))) := by
  intro active erased spare sectors ha
  refine ⟨?_, fun no_fit hsectors he hs => ?_⟩
  · rintro k rfl fits
    rw [placeRecord_fits (roomFor_fits (f := newWrite tag op record) (s := taken s) ha fits), programAt_eq,
      dispatched_nvWork]
    rfl
  · obtain rfl : sectors = activeFull active s.store.sectors := hsectors
    have placed : placeRecord (newWrite tag op record) (taken s) =
        placeElsewhere (activeFull active s.store.sectors) (newWrite tag op record) (taken s) :=
      placeRecord_elsewhere (s := taken s) ha (roomFor_full (s := taken s) ha no_fit)
    rw [placed]
    refine ⟨?_, ?_⟩
    · rintro k rfl
      exact (congrArg dispatched (placeElsewhere_opens he)).trans (dispatched_nvWork _ _ _)
    · rintro v k lives rfl rfl hv rfl
      refine ⟨liveIn_rising _ _, fun x => mem_liveIn, fun no_live => ?_, fun x xs some_live => ?_⟩
      · exact (congrArg dispatched (placeElsewhere_erases (s := taken s) he hs hv no_live)).trans (dispatched_nvWork _ _ _)
      · exact (congrArg dispatched (placeElsewhere_copies (s := taken s) he hs hv some_live)).trans (dispatched_nvWork _ _ _)

theorem storeIdle_of_canWrite (h : CanWrite s) : StoreIdle s :=
  let ⟨loaded, empty, idle, _⟩ := h
  ⟨loaded, empty, idle⟩

theorem room_of_canWrite (h : CanWrite s) : canWrite s.store = true :=
  let ⟨_, _, _, room⟩ := h
  canWrite_iff.2 room

/-- A request of an idle store whose start is to write a record begins its NV work. -/
theorem Admitted.begins (ha : Admitted cmd op r s) (hw : CanWrite s)
    (hs : startOp ⟨r.tag, op⟩ (taken s) = writeRecord ⟨r.tag, op⟩ record (taken s)) :
    ∃ t, exec cmd s = .next t ∧ BeginsWriting r.tag op record s t := by
  have placed : startOp ⟨r.tag, op⟩ (taken s) = placeRecord (newWrite r.tag op record) (taken s) := hs.trans (if_pos (room_of_canWrite hw))
  refine ⟨_, ?_, placeRecord_beginsWriting r.tag op record s⟩
  rw [ha.starts (storeIdle_of_canWrite hw), dispatch_inHandover ha.handover, placed]
  rfl

/-! ## The operations asked for -/

/-- A Save's payload: slot, option and an optional label of 32 bytes (R173). -/
abbrev SavePayload (payload : List Byte) (slot n : Nat) (label : Option (List Byte)) : Prop :=
  payload = [BitVec.ofNat 8 slot, BitVec.ofNat 8 n] ∧ label = none ∨
    ∃ l, l.length = 32 ∧ payload = BitVec.ofNat 8 slot :: BitVec.ofNat 8 n :: l ∧ label = some l

theorem byteAt_ofNat_cons (h : n ≤ 1) : byteAt (BitVec.ofNat 8 n :: rest) 0 = n := by
  rw [byteAt_cons_zero, BitVec.toNat_ofNat, Nat.mod_eq_of_lt (by omega)]

theorem beq_one_eq (n : Nat) : (n == 1) = decide (n = 1) := rfl

theorem savePayload_parts (h : SavePayload r.payload slot n label) (hn : n ≤ 1) (s : State) :
    ∃ rest, r.payload = BitVec.ofNat 8 slot :: rest ∧ byteAt rest 0 = n ∧
      saveOp slot rest s = .save slot (decide (n = 1)) label (snapshotNow (decide (n = 1)) s) := by
  rcases h with ⟨hp, rfl⟩ | ⟨l, hl, hp, rfl⟩
  · refine ⟨_, hp, byteAt_ofNat_cons hn, ?_⟩
    rw [saveOp, byteAt_ofNat_cons hn, beq_one_eq]; rfl
  · refine ⟨_, hp, byteAt_ofNat_cons hn, ?_⟩
    rw [saveOp, byteAt_ofNat_cons hn, if_pos (by rw [List.length_cons, hl]), beq_one_eq, List.drop_one, List.tail_cons]

/-- The snapshot of a Save that arrives once the setup is loaded (R173). -/
theorem snapshotNow_eq (s : State) : snapshotNow (decide (n = 1)) s =
    if s.setup.loadApplied then some (s.setup.values, if n = 1 then s.setup.mask else none) else none := by
  simp only [snapshotNow, decide_eq_true_eq]

theorem admitted_save (hr : InHandover 0x28 r s) (h4 : 4 ≤ slot) (h63 : slot ≤ 63) (hn : n ≤ 1)
    (hp : SavePayload r.payload slot n label) :
    Admitted .save (.save slot (decide (n = 1)) label (snapshotNow (decide (n = 1)) s)) r s := by
  obtain ⟨rest, payload, option, hop⟩ := savePayload_parts hp hn s
  exact hop ▸ (SlotRequest.saves hr).admitted payload h4 h63 (option ▸ hn)

theorem admitted_protect (hr : InHandover 0x2B r s) (h4 : 4 ≤ slot) (h63 : slot ≤ 63) (hn : n ≤ 1)
    (hp : r.payload = [BitVec.ofNat 8 slot, BitVec.ofNat 8 n]) : Admitted .protect (.protect slot (decide (n = 1))) r s := by
  have h := (SlotRequest.protects hr).admitted hp h4 h63 ((byteAt_ofNat_cons hn).symm ▸ hn)
  rwa [byteAt_ofNat_cons hn] at h

/-- A flag as the byte that carries it. -/
theorem admitted_protect_flag {flag : Bool} (hr : InHandover 0x2B r s) (h4 : 4 ≤ slot) (h63 : slot ≤ 63)
    (hp : r.payload = [BitVec.ofNat 8 slot, if flag then 1 else 0]) : Admitted .protect (.protect slot flag) r s := by
  cases flag
  · exact admitted_protect (n := 0) hr h4 h63 (by decide) hp
  · exact admitted_protect (n := 1) hr h4 h63 (by decide) hp

theorem protect_unchanged {loc : RecordLoc} {seq len : Nat} {hm flag : Bool} {lb : Option (List Byte)}
    (ha : Admitted .protect (.protect slot flag) r s) (hi : StoreIdle s)
    (he : slotEntry s slot = .present loc seq len flag hm lb) :
    exec .protect s = .next (answered s (doneReply r (leBytes 4 seq ++ [0]))) :=
  request_reported (ha.starts hi) ha.handover (startProtect_same (s := taken s) he)

/-- Settles O50: each request is admitted as its operation, which starts with `writeRecord` on an idle store and waits in its
place behind a busy one. -/
theorem storeRequestsBeginProgramming : Obligations.StoreRequestsBeginProgramming := by
  refine ⟨fun r s slot h4 h63 hw => ⟨?_, ?_, ?_, ?_, ?_⟩, ?_, ?_⟩
  · rintro option label hr hn unprotected hp snapshot record rfl rfl
    have ha := admitted_save hr h4 h63 hn hp
    rw [snapshotNow_eq, if_pos hw.1] at ha
    exact ha.begins hw (startSave_writes (s := taken s) unprotected)
  · intro loc seq len hm lb hr hp he
    exact ((SlotRequest.deletes hr).admitted hp h4 h63 (by decide)).begins hw (startDelete_writes (s := taken s) he)
  · rintro loc seq len hm lb prot flag old record hr hp he hf hread rfl
    exact (admitted_protect_flag hr h4 h63 hp).begins hw (startProtect_writes (s := taken s) he hf hread)
  · rintro record hr hi hk rfl unprotected rfl
    exact (admitted_importSlot hr hi hk h4 h63).begins hw (startImport_writes (s := taken s) unprotected)
  · intro chosen hr hc hp
    exact (admitted_setPowerOn hr hp hc).begins hw rfl
  · intro r s slot loc seq len hm lb flag hr h4 h63 hp he hl hq hf
    exact protect_unchanged (admitted_protect_flag hr h4 h63 hp) ⟨hl, hq, hf⟩ he
  · intro r s slot n cmd op h4 h63 busy free hreq
    have ha : Admitted cmd op r s := by
      rcases hreq with ⟨hr, rfl, hn, label, hp, rfl⟩ | ⟨hr, rfl, hp, rfl⟩ | ⟨hr, rfl, hp, rfl⟩ | ⟨hr, rfl, hn, hp, rfl⟩ |
        ⟨hr, rfl, h1, h32, hn, hp, rfl⟩ | ⟨hr, rfl, hp, rfl⟩ | ⟨hr, rfl, hi, hk, rfl, rfl⟩ | ⟨hr, rfl, hp, rfl⟩
      · exact snapshotNow_eq s ▸ admitted_save hr h4 h63 hn hp
      · exact (SlotRequest.recalls hr).admitted hp h4 h63 (by decide)
      · exact (SlotRequest.deletes hr).admitted hp h4 h63 (by decide)
      · exact admitted_protect hr h4 h63 hn hp
      · exact admitted_listSlots hr hp h1 h32 hn
      · exact (SlotRequest.exports hr).admitted hp h4 h63 (by decide)
      · exact admitted_importSlot hr hi hk h4 h63
      · exact admitted_setPowerOn hr hp h63
    exact ha.waits (Nat.not_le.2 free) busy

end Sys2Proof.Machine.SetupStore
end

section
/-! The ends of NV work: a record that has been programmed becomes live and its request is answered, a copy moves the references to
it, and an erase swaps the roles and lets the waiting record be programmed (R165, R169 to R171, R184). -/

namespace Sys2Proof.Machine.SetupStore

variable {s : State} {f : InFlight} {q : QueuedOp} {op : StoreOp} {record : List Byte} {sector offset victim spare dest k j : Nat}
  {sectors : List Sector} {st : Store} {x : LiveRecord} {todo : List LiveRecord} {rest : List QueuedOp}

/-! ## The NV bytes -/

/-- Bytes programmed read back (R162). -/
theorem memRead_programBytes_inside {nv : Memory} {bytes : List Byte} {i : Nat} (hw : Memory.wf nvDefault nv)
    (hi : i < bytes.length) :
    some (memRead nvDefault (programBytes nv sector offset bytes) (sector * 4096 + offset + i)) = bytes[i]? := by
  rw [programBytes, sectorBytes, memRead_memWriteBytes hw, if_pos (Nat.le_add_right _ _), Nat.add_sub_cancel_left,
    List.getD_eq_getElem?_getD, List.getElem?_eq_getElem hi, Option.getD_some]

theorem memRead_eraseSector_inside {nv : Memory} {i : Nat} (hi : i < 4096) :
    memRead nvDefault (eraseSector nv sector) (sector * 4096 + i) = 0xFF := by
  rw [memRead_eraseSector, if_pos (by omega)]; rfl

theorem memRead_eraseSector_elsewhere {nv : Memory} {a : Nat} (h : a < sector * 4096 ∨ sector * 4096 + 4096 ≤ a) :
    memRead nvDefault (eraseSector nv sector) a = memRead nvDefault nv a := by
  rw [memRead_eraseSector, if_neg (by omega)]

/-! ## The sector table -/

theorem modifySector_map {α : Type} {g : Sector → α} {change : Sector → Sector} (h : ∀ row, g (change row) = g row)
    (k : Nat) (sectors : List Sector) : (modifySector k change sectors).map g = sectors.map g := by
  rw [modifySector, List.map_set, h]
  rcases Nat.lt_or_ge k sectors.length with inside | outside
  · rw [sectorRow, List.getD_eq_getElem?_getD, List.getElem?_eq_getElem inside, Option.getD_some, ← List.map_set,
      List.set_getElem_self]
  · exact List.set_eq_of_length_le (by rwa [List.length_map])

/-- What the accounting of live bytes leaves of a row. -/
def roleOf (row : Sector) : SectorState × Nat := (row.state, row.used)

theorem addLive_roles (k n : Nat) (sectors : List Sector) : (addLive k n sectors).map roleOf = sectors.map roleOf :=
  modifySector_map (by intro row; rfl) k sectors

theorem dropLive_roles (old : List (Nat × LiveRecord)) (sectors : List Sector) :
    (dropLive old sectors).map roleOf = sectors.map roleOf := by
  induction old generalizing sectors with
  | nil => rfl
  | cons p ps ih => exact (ih _).trans (modifySector_map (by intro row; rfl) p.1 sectors)

/-! ## A record becomes live (R165, R169, R184) -/

theorem adoptRecord_queue (op : StoreOp) (record : List Byte) (sector offset : Nat) (st : Store) :
    (adoptRecord op record sector offset st).queue = st.queue := by cases op <;> rfl

theorem adoptRecord_seqCounter (op : StoreOp) (record : List Byte) (sector offset : Nat) (st : Store) :
    (adoptRecord op record sector offset st).seqCounter = st.seqCounter := by cases op <;> rfl

theorem adoptRecord_roles (op : StoreOp) (record : List Byte) (sector offset : Nat) (st : Store) :
    (adoptRecord op record sector offset st).sectors.map roleOf = st.sectors.map roleOf := by
  match op with
  | .save _ _ _ _ | .protect _ _ | .importSlot _ | .delete _ | .setPowerOn _ =>
    exact (addLive_roles _ _ _).trans (dropLive_roles _ _)
  | .recall _ | .panelRecall _ | .listSlots _ _ | .exportSlot _ => rfl

/-- The store once the record in flight is live. -/
def writtenStore (f : InFlight) (sector offset : Nat) (st : Store) : Store :=
  { adoptRecord f.op.op f.record sector offset st with
    seqCounter := (adoptRecord f.op.op f.record sector offset st).seqCounter + 1, inFlight := none }

/-- The state once the record in flight is live and its request is answered, before the next operation starts. -/
def written (f : InFlight) (sector offset : Nat) (s : State) : State :=
  let u := setStore (writtenStore f sector offset s.store) { s with nv := programBytes s.nv sector offset f.record }
  if f.silent then u else replyDone f.op.tag (writtenPayload f) u

theorem recordWritten_eq (f : InFlight) (sector offset : Nat) (s : State) :
    recordWritten f sector offset s = serveStore (written f sector offset s) := rfl

theorem written_eq (f : InFlight) (sector offset : Nat) (s : State) : written f sector offset s = { s with
    nv := programBytes s.nv sector offset f.record, store := writtenStore f sector offset s.store
    link := { s.link with replies := (written f sector offset s).link.replies } } := by
  rw [written]; dsimp only; split <;> rfl

theorem written_store (f : InFlight) (sector offset : Nat) (s : State) :
    (written f sector offset s).store = writtenStore f sector offset s.store := by rw [written_eq]

theorem written_nv (f : InFlight) (sector offset : Nat) (s : State) :
    (written f sector offset s).nv = programBytes s.nv sector offset f.record := by rw [written_eq]

theorem written_silent (h : f.silent = true) : (written f sector offset s).link = s.link := by
  rw [written, if_pos h]; rfl

theorem written_replies (h : f.silent = false) : (written f sector offset s).link.replies = s.link.replies ++
    [⟨0x80, f.op.tag, writtenPayload f, .accepted⟩] := by
  rw [written, if_neg (by rw [h]; decide)]; rfl

theorem programDone_programming (hf : s.store.inFlight = some f) (hst : f.stage = .programming sector offset) :
    programDone s = serveStore (written f sector offset s) := by
  rw [programDone, hf]; dsimp only; rw [hst]; exact recordWritten_eq f sector offset s

/-! ## A copy is complete (R170) -/

/-- The state once a reclaim's copy is complete, before the next copy or the erase. -/
def copied (victim spare : Nat) (x : LiveRecord) (dest : Nat) (s : State) : State :=
  setStore { s.store with
    slots := s.store.slots.map (moveEntry victim x.offset spare dest)
    powerOnLoc := if s.store.powerOnLoc = some (victim, x.offset) then some (spare, dest) else s.store.powerOnLoc
    sectors := addLive spare x.len (dropLive [(victim, x)] s.store.sectors) }
  { s with nv := programBytes s.nv spare dest (memSlice nvDefault s.nv (victim * sectorBytes + x.offset) x.len) }

theorem programDone_copying (hf : s.store.inFlight = some f) (hst : f.stage = .copying victim spare x dest todo) :
    programDone s = copyNext victim spare todo f (copied victim spare x dest s) := by
  rw [programDone, hf]; dsimp only; rw [hst]; rfl

theorem memRead_copied_inside {i : Nat} (hw : Memory.wf nvDefault s.nv) (hi : i < x.len) :
    memRead nvDefault (copied victim spare x dest s).nv (spare * 4096 + dest + i) =
      memRead nvDefault s.nv (victim * 4096 + x.offset + i) := by
  have read := memRead_programBytes_inside (sector := spare) (offset := dest) (i := i) hw
    (bytes := memSlice nvDefault s.nv (victim * sectorBytes + x.offset) x.len) (by rwa [memSlice_length])
  rw [memSlice_getElem? hi] at read
  exact Option.some.inj read

theorem memRead_copied_elsewhere {a : Nat} (h : a < spare * 4096 + dest ∨ spare * 4096 + dest + x.len ≤ a) :
    memRead nvDefault (copied victim spare x dest s).nv a = memRead nvDefault s.nv a :=
  memRead_programBytes_elsewhere (by rwa [memSlice_length])

theorem copied_sectors_length : (copied victim spare x dest s).store.sectors.length = s.store.sectors.length := by
  simp only [copied, setStore_store, addLive, dropLive, List.foldl_cons, List.foldl_nil, modifySector, List.length_set]

/-- The next copy, or the erase, changes the used bytes of the Spare and the stage only. -/
theorem copyNext_eq (victim spare : Nat) (todo : List LiveRecord) (f : InFlight) (s : State) :
    copyNext victim spare todo f s = { s with store := { s.store with
      sectors := (copyNext victim spare todo f s).store.sectors
      inFlight := (copyNext victim spare todo f s).store.inFlight } } := by cases todo <;> rfl

theorem copyNext_live (f : InFlight) (hk : spare < s.store.sectors.length) (j : Nat) :
    (sectorRow (copyNext victim spare todo f s).store.sectors j).live = (sectorRow s.store.sectors j).live := by
  cases todo with
  | nil => rfl
  | cons y ys =>
    simp only [copyNext, setStore_store, modifySector]
    by_cases at_spare : spare = j
    · rw [← at_spare, sectorRow_set_self hk]
    · rw [sectorRow_set_ne at_spare]

theorem copyNext_used {y : LiveRecord} (f : InFlight) (hk : spare < s.store.sectors.length) :
    (sectorRow (copyNext victim spare (y :: todo) f s).store.sectors spare).used =
      (sectorRow s.store.sectors spare).used + y.len :=
  congrArg Sector.used (sectorRow_set_self hk)

theorem copied_row_spare (hk : spare < s.store.sectors.length) (hne : victim ≠ spare) :
    sectorRow (copied victim spare x dest s).store.sectors spare =
      { sectorRow s.store.sectors spare with live := (sectorRow s.store.sectors spare).live + x.len } := by
  simp only [copied, setStore_store, addLive, dropLive, List.foldl_cons, List.foldl_nil, modifySector]
  rw [sectorRow_set_self (by rwa [List.length_set]), sectorRow_set_ne hne]

theorem copied_row_victim (hk : victim < s.store.sectors.length) (hne : victim ≠ spare) :
    sectorRow (copied victim spare x dest s).store.sectors victim =
      { sectorRow s.store.sectors victim with live := (sectorRow s.store.sectors victim).live - x.len } := by
  simp only [copied, setStore_store, addLive, dropLive, List.foldl_cons, List.foldl_nil, modifySector]
  rw [sectorRow_set_ne hne.symm, sectorRow_set_self hk]

theorem moveEntry_present (loc : RecordLoc) (seq len : Nat) (prot hm : Bool) (lb : Option (List Byte)) (a o b n : Nat) :
    moveEntry a o b n (.present loc seq len prot hm lb) =
      .present (if loc = .nv a o then .nv b n else loc) seq len prot hm lb := by
  cases loc with
  | factory i => rw [if_neg (by simp)]; rfl
  | nv sector offset => simp only [moveEntry, RecordLoc.nv.injEq]; split <;> rfl

theorem moveEntry_empty (d : Option (Nat × Nat)) (a o b n : Nat) :
    moveEntry a o b n (.empty d) = .empty (if d = some (a, o) then some (b, n) else d) := by
  cases d with
  | none => rw [if_neg (by simp)]; rfl
  | some p =>
    obtain ⟨sector, offset⟩ := p
    simp only [moveEntry, Option.some.injEq, Prod.mk.injEq]; split <;> rfl

/-! ## The victim is erased (R170) -/

/-- The state once the victim is erased and the roles are swapped. -/
def swapped (victim : Nat) (spare : Option Nat) (s : State) : State :=
  setStore { s.store with sectors := eraseRoles victim spare s.store.sectors } { s with nv := eraseSector s.nv victim }

theorem eraseDone_erasing {spare : Option Nat} (he : s.store.rebuildErase = none) (hf : s.store.inFlight = some f)
    (hst : f.stage = .erasing victim spare) : eraseDone s = placeRecord f (swapped victim spare s) := by
  rw [eraseDone, he]; dsimp only; rw [hf]; dsimp only; rw [hst]; rfl

theorem eraseRoles_length (victim : Nat) (spare : Option Nat) (sectors : List Sector) :
    (eraseRoles victim spare sectors).length = sectors.length := by
  cases spare <;> simp only [eraseRoles, modifySector, List.length_set]

theorem not_active_of_findSector (h : findSector (inState .active) sectors = none) (hj : j < sectors.length) :
    (sectorRow sectors j).state ≠ .active :=
  mt inState_iff.2 (List.find?_eq_none.1 h j (List.mem_range.2 hj))

/-- The copies' sector is the Active one after the swap, and the victim the Spare. -/
theorem eraseRoles_spare (hv : victim < sectors.length) (hk : k < sectors.length) (hne : k ≠ victim) :
    sectorRow (eraseRoles victim (some k) sectors) victim = ⟨.spare, 0, 0⟩ ∧
      sectorRow (eraseRoles victim (some k) sectors) k = { sectorRow sectors k with state := .active } ∧
      ∀ j, j ≠ victim → j ≠ k → sectorRow (eraseRoles victim (some k) sectors) j = sectorRow sectors j := by
  refine ⟨sectorRow_set_self (by rwa [modifySector, List.length_set]), ?_, fun j hjv hjk => ?_⟩
  · rw [eraseRoles, modifySector, sectorRow_set_ne hne.symm, modifySector, sectorRow_set_self hk]
  · rw [eraseRoles, modifySector, sectorRow_set_ne hjv.symm, modifySector, sectorRow_set_ne hjk.symm]

theorem isFirst_active_spare (hnone : findSector (inState .active) sectors = none) (hv : victim < sectors.length)
    (hk : k < sectors.length) (hne : k ≠ victim) : IsFirst .active (eraseRoles victim (some k) sectors) (some k) := by
  obtain ⟨at_victim, at_k, elsewhere⟩ := eraseRoles_spare hv hk hne
  refine ⟨by rwa [eraseRoles_length], by rw [at_k], fun j hj => ?_⟩
  by_cases is_victim : j = victim
  · rw [is_victim, at_victim]; decide
  · rw [elsewhere j is_victim (Nat.ne_of_lt hj)]
    exact not_active_of_findSector hnone (Nat.lt_trans hj hk)

theorem sectorRow_erased_victim (hv : victim < sectors.length) :
    sectorRow (eraseRoles victim none sectors) victim = ⟨.active, 0, 0⟩ := sectorRow_set_self hv

/-- A victim without live records becomes the Active sector. -/
theorem isFirst_active_victim (hnone : findSector (inState .active) sectors = none) (hv : victim < sectors.length) :
    IsFirst .active (eraseRoles victim none sectors) (some victim) := by
  refine ⟨by rwa [eraseRoles_length], by rw [sectorRow_erased_victim hv], fun j hj => ?_⟩
  rw [eraseRoles, modifySector, sectorRow_set_ne (Nat.ne_of_gt hj)]
  exact not_active_of_findSector hnone (Nat.lt_trans hj hv)

/-! ## The next operation (R171) -/

/-- A store with nothing in flight starts its oldest operation, and stops there when that one is in flight. -/
theorem serveStore_next (hl : s.setup.loadApplied = true) (hf : s.store.inFlight = none) (hq : s.store.queue = q :: rest)
    (hs : (startOp q (setQueue rest s)).store.inFlight.isSome = true) : serveStore s = startOp q (setQueue rest s) := by
  rw [serveStore, if_pos (by rw [hl, hf]; rfl), hq]
  exact if_pos hs

end Sys2Proof.Machine.SetupStore
end

section
/-! The completions of NV work, put together from what each does (R165, R169 to R171, R184). -/

namespace Sys2Proof.Machine.SetupStore

variable {s : State} {f : InFlight} {sector offset victim spare dest k slot : Nat} {x : LiveRecord} {todo : List LiveRecord}

theorem programCompletion_run (h : s.powered = true) : exec .programCompletion s = .next (programDone s) :=
  command_powered programDone h

theorem eraseCompletion_run (h : s.powered = true) : exec .eraseCompletion s = .next (eraseDone s) :=
  command_powered eraseDone h

theorem programCompletion_written (hp : s.powered = true) (hf : s.store.inFlight = some f)
    (hst : f.stage = .programming sector offset) (hq : s.store.queue = []) :
    exec .programCompletion s = .next (written f sector offset s) := by
  rw [programCompletion_run hp, programDone_programming hf hst, serveStore_of_nil]
  rw [written_store]
  exact (adoptRecord_queue _ _ _ _ _).trans hq

/-- What an operation's record makes of the slot table, and the payload it answers (R165, R173, R176, R177, R180, R181). -/
theorem written_outcome {slots : List SlotEntry} {payload : List Byte}
    (hslots : (adoptRecord f.op.op f.record sector offset s.store).slots = slots) (hpay : writtenPayload f = payload) :
    (written f sector offset s).store.slots = slots ∧ (f.silent = false →
      (written f sector offset s).link.replies = s.link.replies ++ [⟨0x80, f.op.tag, payload, .accepted⟩]) :=
  ⟨(congrArg Store.slots (written_store f sector offset s)).trans hslots, fun h => hpay ▸ written_replies h⟩

theorem moveEntries_getElem? {i : Nat} {e : SlotEntry} (h : s.store.slots[i]? = some e) :
    (copied victim spare x dest s).store.slots[i]? = some (moveEntry victim x.offset spare dest e) := by
  simp only [copied, setStore_store, List.getElem?_map, h, Option.map_some]

/-- A SetPowerOn's record makes its place the power-on choice. -/
theorem written_powerOn (hop : f.op.op = .setPowerOn slot) : (written f sector offset s).store.powerOnSlot = slot ∧
    (written f sector offset s).store.powerOnLoc = some (sector, offset) ∧
    (written f sector offset s).store.slots = s.store.slots := by
  simp only [written_store, writtenStore, hop]
  exact ⟨rfl, rfl, rfl⟩

theorem swapped_length (victim : Nat) (spare : Option Nat) (s : State) :
    (swapped victim spare s).store.sectors.length = s.store.sectors.length := eraseRoles_length _ _ _

/-- After the victim's erase the waiting record is programmed at the end of the Active sector, when it fits there. -/
theorem eraseCompletion_placed {spare : Option Nat} (hp : s.powered = true) (he : s.store.rebuildErase = none)
    (hf : s.store.inFlight = some f) (hst : f.stage = .erasing victim spare)
    (first : IsFirst .active (eraseRoles victim spare s.store.sectors) (some k))
    (fits : (sectorRow (eraseRoles victim spare s.store.sectors) k).used + f.record.length ≤ 4096) :
    exec .eraseCompletion s = .next (programAt k f (swapped victim spare s)) := by
  rw [eraseCompletion_run hp, eraseDone_erasing he hf hst,
    placeRecord_fits (roomFor_fits (s := swapped victim spare s) first fits)]

/-- Settles O52: the program's end is `written`, the copy's `copied` and `copyNext`, the erase's `swapped` and
`placeRecord`. -/
theorem nvCompletionsMakeRecordsLive : Obligations.NvCompletionsMakeRecordsLive := by
  refine ⟨fun s f hp hf hq hre hw => ⟨fun sector offset hst => ?_, fun victim spare x dest todo hst hlen hv hk hne => ?_,
    fun victim spare hst hlen hv hrec hnone hspare => ?_⟩, ?_⟩
  · refine ⟨_, programCompletion_written hp hf hst hq, ?_, fun a ha => ?_, fun i hi => ?_, ?_, ?_, ?_, ?_, written_silent, ?_, ?_⟩
    · rw [written_eq]
    · rw [written_nv]; exact memRead_programBytes_elsewhere ha
    · rw [written_nv]; exact memRead_programBytes_inside hw hi
    · rw [written_store]; rfl
    · rw [written_store]; exact (adoptRecord_queue _ _ _ _ _).trans hq
    · rw [written_store]; exact congrArg (· + 1) (adoptRecord_seqCounter _ _ _ _ _)
    · rw [written_store]; exact adoptRecord_roles _ _ _ _ _
    · rw [written_eq]
    · rintro seq place rfl rfl
      refine ⟨fun slot m l y hop => ?_, fun slot hop => ?_, fun slot b hop => ?_, fun rec hop => ?_, fun slot hop => ?_⟩
      · exact written_outcome (by rw [hop]; rfl) (by simp only [writtenPayload, hop]; rfl)
      · exact written_outcome (by rw [hop]; rfl) (by simp only [writtenPayload, hop])
      · exact written_outcome (by rw [hop]; rfl) (by simp only [writtenPayload, hop])
      · exact written_outcome (by rw [hop]; rfl) (by simp only [writtenPayload, hop])
      · obtain ⟨choice, place, slots⟩ := written_powerOn (sector := sector) (offset := offset) (s := s) hop
        exact ⟨slots, choice, place, fun h => (written_replies h).trans (by simp only [writtenPayload, hop])⟩
  · have in_victim : victim < s.store.sectors.length := by omega
    have in_spare : spare < s.store.sectors.length := by omega
    have in_copied : spare < (copied victim spare x dest s).store.sectors.length := by rwa [copied_sectors_length]
    have at_spare := copied_row_spare (x := x) (dest := dest) in_spare hne
    have at_victim := copied_row_victim (x := x) (dest := dest) in_victim hne
    refine ⟨_, (programCompletion_run hp).trans (congrArg _ (programDone_copying hf hst)), ?_, fun a ha => ?_, fun i hi => ?_,
      ?_, ?_, fun i e he => ?_, ?_, ?_, ?_, ?_, ?_⟩
    · rw [copyNext_eq]; rfl
    · rw [copyNext_eq]; exact memRead_copied_elsewhere ha
    · rw [copyNext_eq]; exact memRead_copied_inside hw hi
    · rw [copyNext_eq]; exact List.length_map _
    · rw [copyNext_eq]; rfl
    · rw [copyNext_eq]
      refine (moveEntries_getElem? he).trans (congrArg some ?_)
      cases e with
      | present loc seq len prot hm lb => exact moveEntry_present _ _ _ _ _ _ _ _ _ _
      | empty d => exact moveEntry_empty _ _ _ _ _
    · rw [copyNext_eq]; rfl
    · rw [copyNext_live f in_copied, at_spare]
    · rw [copyNext_live f in_copied, at_victim]
    · rintro rfl; rfl
    · rintro y ys rfl
      refine ⟨?_, (copyNext_used f in_copied).trans (by rw [at_spare])⟩
      exact congrArg (fun row : Sector => some { f with stage := .copying victim spare y row.used ys }) at_spare
  · have in_victim : victim < s.store.sectors.length := by omega
    cases spare with
    | none =>
      have at_victim := sectorRow_erased_victim in_victim
      refine ⟨_, eraseCompletion_placed hp hre hf hst (isFirst_active_victim hnone in_victim)
        (by rw [at_victim, Nat.zero_add]; omega), rfl, fun a ha => memRead_eraseSector_elsewhere ha,
        fun i hi => memRead_eraseSector_inside hi, 
        fun _ => ⟨?_, programAt_inFlight (row := ⟨.active, 0, 0⟩) at_victim⟩, fun k row h => nomatch h⟩
      have placed := programAt_row_self (f := f) (s := swapped victim none s) (by rwa [swapped_length]) at_victim
      rwa [Nat.zero_add] at placed
    | some k =>
      obtain ⟨hk, hne, fits⟩ := hspare k rfl
      have in_spare : k < s.store.sectors.length := by omega
      obtain ⟨at_victim, at_k, -⟩ := eraseRoles_spare in_victim in_spare hne
      refine ⟨_, eraseCompletion_placed hp hre hf hst (isFirst_active_spare hnone in_victim in_spare hne) (by rwa [at_k]), rfl,
        fun a ha => memRead_eraseSector_elsewhere ha, fun i hi => memRead_eraseSector_inside hi, fun h => (nomatch h), ?_⟩
      rintro k' row ⟨⟩ rfl
      exact ⟨(programAt_row_ne hne).trans at_victim,
        programAt_row_self (s := swapped victim (some k) s) (by rwa [swapped_length]) at_k,
        programAt_inFlight (row := { sectorRow s.store.sectors k with state := .active }) at_k⟩
  · intro s f sector offset chosen slot k tag rest seq len prot hm lb rec hp hl hf hst hop hq he hread
    obtain ⟨choice, -, slots⟩ := written_powerOn (sector := sector) (offset := offset) (s := s) hop
    have queue : (written f sector offset s).store.queue = ⟨tag, .recall slot⟩ :: rest := by
      rw [written_store]; exact (adoptRecord_queue _ _ _ _ _).trans hq
    have started : startOp ⟨tag, .recall slot⟩ (setQueue rest (written f sector offset s)) =
        setInFlight (some ⟨⟨tag, .recall slot⟩, [], false, false, .handed (recChangeSet rec)⟩)
          (setQueue rest (written f sector offset s)) := by
      refine startRecall_reads ?_ ?_ (loc := .factory k) (seq := seq) (len := len) (prot := prot) (hm := hm) (lb := lb)
      · rw [slotEntry, setQueue_store, slots]; exact he
      · simp only [readRecord, setQueue_store, written_store, writtenStore, hop]; exact hread
    refine ⟨_, (programCompletion_run hp).trans (congrArg _ ((programDone_programming hf hst).trans
      ((serveStore_next ?_ ?_ queue (by rw [started]; rfl)).trans started))), rfl, choice, rfl⟩
    · rw [written_eq]; exact hl
    · rw [written_store]; rfl

end Sys2Proof.Machine.SetupStore
end

section
/-! Holds and panel recalls: the count of a slot's holds, the recall that its last release starts, and the recalls that a new panel
recall replaces (R172, R174, R175, R182, R183). -/

namespace Sys2Proof.Machine.SetupStore

open FrontPanel

variable {s u : State} {r : Request} {cmd : Instr} {kind : Byte} {serve : Request → State → State} {slot n old : Nat}
  {want : Bool} {pre post : List Lock} {rest : List Nat} {bytes : List Byte} {st : Store} {q : QueuedOp}

/-! ## Answers that come with a change of the store -/

theorem store_done (arm : exec cmd s = dispatchCommand kind serve s) (h : InHandover kind r s)
    (hs : serve r (taken s) = replyDone r.tag bytes (setStore st (taken s))) :
    exec cmd s = .next { answered s (doneReply r bytes) with store := st } :=
  arm.trans (dispatch_replied h (u := setStore st (taken s)) rfl hs)

theorem afterDispatch_with_notices (l : Link) (ns : List Notice) (lost : Nat) :
    afterDispatch { l with notices := ns, noticesLost := lost } =
      { afterDispatch l with notices := ns, noticesLost := lost } := by
  unfold afterDispatch; cases l.resetPending <;> cases l.requests <;> rfl

theorem afterDispatch_notices (l : Link) : (afterDispatch l).notices = l.notices := by
  unfold afterDispatch; cases l.resetPending <;> cases l.requests <;> rfl

theorem afterDispatch_noticesLost (l : Link) : (afterDispatch l).noticesLost = l.noticesLost := by
  unfold afterDispatch; cases l.resetPending <;> cases l.requests <;> rfl

/-- A notice offered before the next hand-over or after it is offered alike. -/
theorem afterDispatch_offerLink (notice : Notice) (l : Link) :
    afterDispatch (offerLink notice l) = offerLink notice (afterDispatch l) := by
  unfold offerLink
  rw [afterDispatch_notices, afterDispatch_noticesLost]
  split
  · exact afterDispatch_with_notices l _ _
  · split <;> exact afterDispatch_with_notices l _ _

/-- A request answered with a change of the store and a notice. -/
theorem store_done_offered {notice : Notice} (arm : exec cmd s = dispatchCommand kind serve s) (h : InHandover kind r s)
    (hs : serve r (taken s) = offer notice (replyDone r.tag bytes (setStore st (taken s)))) :
    exec cmd s = .next { answered s (doneReply r bytes) with
      store := st, link := offerLink notice (answered s (doneReply r bytes)).link } := by
  have link : beginHandover (offerLink notice (replyDone r.tag bytes (setStore st (taken s))).link) =
      offerLink notice (answered s (doneReply r bytes)).link := by
    rw [beginHandover_of_none (by rw [offerLink_handover]; rfl), afterDispatch_offerLink]
    exact congrArg (offerLink notice)
      (afterDispatch_handover { s.link with replies := s.link.replies ++ [doneReply r bytes] } none)
  rw [arm, dispatch_inHandover h, hs]
  exact congrArg (fun l => Host.Outcome.next (setLink l (setStore st (taken s)))) link

/-! ## Hold (R182) -/

theorem serveHold_new (h4 : 4 ≤ slotOf r) (h63 : slotOf r ≤ 63) (hn : ∀ l ∈ s.store.locks, l.slot ≠ slotOf r)
    (room : s.store.locks.length < 4) : serveHold r s = replyDone r.tag [1]
      (setStore { s.store with locks := s.store.locks ++ [⟨slotOf r, 1, false⟩] } s) := by
  rw [serveHold, withUserSlot_user h4 h63]
  simp only [lockOf_none hn]
  exact if_neg (Nat.not_le.2 room)

theorem serveHold_noEntry (h4 : 4 ≤ slotOf r) (h63 : slotOf r ≤ 63) (hn : ∀ l ∈ s.store.locks, l.slot ≠ slotOf r)
    (full : 4 ≤ s.store.locks.length) : serveHold r s = replyRefused r.tag r.kind .noLockEntry .none s := by
  rw [serveHold, withUserSlot_user h4 h63]
  simp only [lockOf_none hn]
  exact if_pos full

theorem serveHold_counts (h4 : 4 ≤ slotOf r) (h63 : slotOf r ≤ 63) (hl : s.store.locks = pre ++ ⟨slotOf r, n, want⟩ :: post)
    (hn : ∀ l ∈ pre ++ post, l.slot ≠ slotOf r) (room : n < 15) :
    serveHold r s = replyDone r.tag [BitVec.ofNat 8 (n + 1)]
      (setStore { s.store with locks := pre ++ ⟨slotOf r, n + 1, want⟩ :: post } s) := by
  rw [serveHold, withUserSlot_user h4 h63]
  simp only [hl, lockOf_some hn, setCount_eq hn]
  exact if_neg (Nat.not_le.2 room)

theorem serveHold_limit (h4 : 4 ≤ slotOf r) (h63 : slotOf r ≤ 63) (hl : s.store.locks = pre ++ ⟨slotOf r, n, want⟩ :: post)
    (hn : ∀ l ∈ pre ++ post, l.slot ≠ slotOf r) (limit : 15 ≤ n) :
    serveHold r s = replyRefused r.tag r.kind .holdLimit .none s := by
  rw [serveHold, withUserSlot_user h4 h63]
  simp only [hl, lockOf_some hn]
  exact if_pos limit

/-! ## Release (R183) -/

theorem serveRelease_notHeld (h63 : slotOf r ≤ 63) (hn : ∀ l ∈ s.store.locks, l.slot ≠ slotOf r) :
    serveRelease r s = replyRefused r.tag r.kind .notHeld .none s := by
  rw [serveRelease, withSlot_inside h63]
  simp only [lockOf_none hn]

theorem serveRelease_counts (h63 : slotOf r ≤ 63) (hl : s.store.locks = pre ++ ⟨slotOf r, n, want⟩ :: post)
    (hn : ∀ l ∈ pre ++ post, l.slot ≠ slotOf r) (more : 2 ≤ n) :
    serveRelease r s = replyDone r.tag [BitVec.ofNat 8 (n - 1), 0]
      (setStore { s.store with locks := pre ++ ⟨slotOf r, n - 1, want⟩ :: post } s) := by
  rw [serveRelease, withSlot_inside h63]
  simp only [hl, lockOf_some hn, setCount_eq hn]
  exact if_neg (by omega)

/-- The store once a slot's entry is freed: a recall that waited for it takes the panel place (R183). -/
def freed (slot : Nat) (want : Bool) (locks : List Lock) (st : Store) : Store :=
  if want then
    { st with locks := locks, waitingRecall := none, queue := st.queue ++ [⟨0, .panelRecall slot⟩] }
  else { st with locks := locks }

theorem freeLock_eq (hl : s.store.locks = pre ++ ⟨slot, n, want⟩ :: post) (hn : ∀ l ∈ pre ++ post, l.slot ≠ slot) :
    freeLock ⟨slot, n, want⟩ s = setStore (freed slot want (pre ++ post) s.store) s := by
  simp only [freeLock, hl, filter_slot_eq hn]
  cases want <;> rfl

theorem serveRelease_last (h63 : slotOf r ≤ 63) (hl : s.store.locks = pre ++ ⟨slotOf r, n, want⟩ :: post)
    (hn : ∀ l ∈ pre ++ post, l.slot ≠ slotOf r) (last : n ≤ 1) : serveRelease r s =
      serveStore (replyDone r.tag [0, boolByte want] (setStore (freed (slotOf r) want (pre ++ post) s.store) s)) := by
  rw [serveRelease, withSlot_inside h63]
  simp only [hl, lockOf_some hn, freeLock_eq hl hn]
  exact if_pos last

/-! ## The start of a panel recall (R174) -/

theorem startOp_panelRecall_held (h : ∃ l ∈ s.store.locks, l.slot = slot) :
    startOp ⟨0, .panelRecall slot⟩ s = waitForLock slot s := by
  obtain ⟨l, mem, at_slot⟩ := h
  exact if_pos (List.any_eq_true.2 ⟨l, mem, by simpa only [beq_iff_eq] using at_slot⟩)

theorem startOp_panelRecall_free (h : ∀ l ∈ s.store.locks, l.slot ≠ slot) :
    startOp ⟨0, .panelRecall slot⟩ s = startRecall ⟨0, .panelRecall slot⟩ slot s := by
  refine if_neg fun held => ?_
  obtain ⟨l, mem, at_slot⟩ := List.any_eq_true.1 held
  exact h l mem (beq_iff_eq.1 at_slot)

/-- The last hold released and answered, with the recall that waited for it in the queue as given. -/
def lastReleased (r : Request) (locks : List Lock) (queue : List QueuedOp) (s : State) : State :=
  replyDone r.tag [0, 1] (setStore { s.store with locks := locks, waitingRecall := none, queue := queue } s)

theorem lastReleased_wanted (r : Request) (locks : List Lock) (s : State) :
    replyDone r.tag [0, boolByte true] (setStore (freed (slotOf r) true locks s.store) s) =
      lastReleased r locks (s.store.queue ++ [⟨0, .panelRecall (slotOf r)⟩]) s := rfl

theorem setQueue_lastReleased (r : Request) (locks : List Lock) (new old : List QueuedOp) (s : State) :
    setQueue new (lastReleased r locks old s) = lastReleased r locks new s := rfl

/-- The last release of a wanted slot, with the store idle, starts the panel recall at once (R183). -/
theorem serveRelease_starts (h63 : slotOf r ≤ 63) (hl : s.store.locks = pre ++ ⟨slotOf r, n, true⟩ :: post)
    (hn : ∀ l ∈ pre ++ post, l.slot ≠ slotOf r) (last : n ≤ 1) (hi : StoreIdle s) : serveRelease r s =
      startRecall ⟨0, .panelRecall (slotOf r)⟩ (slotOf r) (lastReleased r (pre ++ post) s.store.queue s) := by
  obtain ⟨loaded, empty, idle⟩ := hi
  calc serveRelease r s
    _ = serveStore (lastReleased r (pre ++ post) (s.store.queue ++ [(⟨0, .panelRecall (slotOf r)⟩ : QueuedOp)]) s) :=
      (serveRelease_last h63 hl hn last).trans (congrArg serveStore (lastReleased_wanted r _ s))
    _ = serveStore (lastReleased r (pre ++ post) [⟨0, .panelRecall (slotOf r)⟩] s) := by rw [empty, List.nil_append]
    _ = startOp ⟨0, .panelRecall (slotOf r)⟩ (lastReleased r (pre ++ post) [] s)  := by
      rw [serveStore_one (s := lastReleased r _ [_] s) loaded idle rfl, setQueue_lastReleased]
    _ = startRecall ⟨0, .panelRecall (slotOf r)⟩ (slotOf r) (lastReleased r (pre ++ post) [] s) :=
      startOp_panelRecall_free hn
    _ = startRecall ⟨0, .panelRecall (slotOf r)⟩ (slotOf r) (lastReleased r (pre ++ post) s.store.queue s) := by rw [empty]

/-! ## A panel recall handed on (R172) -/

/-- The panel once the store has taken its oldest recall. -/
def withRecalls (rest : List Nat) (s : State) : State := setPanel { s.panel with toStore := rest } s

/-- The lock table once no recall waits for it any more. -/
def unwanted (waiting : Option Nat) (locks : List Lock) : List Lock :=
  match waiting with
  | some w => locks.map fun l => if l.slot = w then { l with want := false } else l
  | none => locks

/-- The store with a panel recall in the panel place, and no other. -/
def replacing (slot : Nat) (st : Store) : Store :=
  { st with
    queue := st.queue.filter (fun q => !isPanelOp q) ++ [⟨0, .panelRecall slot⟩]
    waitingRecall := none, locks := unwanted st.waitingRecall st.locks }

theorem offerReplaced_store (slots : List Nat) (s : State) : (offerReplaced slots s).store = s.store := by
  induction slots generalizing s with
  | nil => rfl
  | cons slot slots ih => exact ih _

theorem takePanelRecall_oldest (h : s.panel.toStore = slot :: rest) : takePanelRecall s =
    serveStore (setStore (replacing slot s.store) (offerReplaced (replacedRecalls s.store) (withRecalls rest s))) := by
  simp only [takePanelRecall, h, offerReplaced_store]
  rfl

theorem panelRecall_run (hp : s.powered = true) : exec .panelRecall s = .next (takePanelRecall s) :=
  command_powered takePanelRecall hp

/-- With nothing to replace and the store idle, it starts at once. -/
theorem panelRecall_starts (hp : s.powered = true) (h : s.panel.toStore = slot :: rest) (hi : StoreIdle s)
    (hw : s.store.waitingRecall = none) :
    exec .panelRecall s = .next (startOp ⟨0, .panelRecall slot⟩ (withRecalls rest s)) := by
  obtain ⟨loaded, empty, idle⟩ := hi
  have nothing : replacedRecalls s.store = [] := by simp only [replacedRecalls, empty, hw]; rfl
  have one : (replacing slot s.store).queue = [⟨0, .panelRecall slot⟩] := by simp only [replacing, empty]; rfl
  have restored : { replacing slot s.store with queue := [] } = s.store := by
    simp only [replacing, unwanted, hw]; rw [← empty, ← hw]
  rw [panelRecall_run hp, takePanelRecall_oldest h, nothing]
  refine congrArg _ ((serveStore_one (s := setStore (replacing slot s.store) (withRecalls rest s)) loaded idle one).trans ?_)
  exact congrArg (fun st => startOp ⟨0, .panelRecall slot⟩ (setStore st (withRecalls rest s))) restored

/-- Behind an operation in flight, it takes the panel place. -/
theorem panelRecall_waits (hp : s.powered = true) (h : s.panel.toStore = slot :: rest) (hf : s.store.inFlight ≠ none) :
    exec .panelRecall s = .next
      (setStore (replacing slot s.store) (offerReplaced (replacedRecalls s.store) (withRecalls rest s))) := by
  rw [panelRecall_run hp, takePanelRecall_oldest h]
  exact congrArg _ (serveStore_busy (.inl (by rwa [setStore_store])))

theorem filter_host {queue : List QueuedOp} (h : ∀ q ∈ queue, isPanelOp q = false) :
    queue.filter (fun q => !isPanelOp q) = queue :=
  List.filter_eq_self.2 fun q hq => by rw [h q hq]; rfl

/-- The slot of a panel recall. -/
def panelSlot (q : QueuedOp) : Option Nat :=
  match q.op with
  | .panelRecall slot => some slot
  | _ => none

theorem replacedRecalls_eq (st : Store) : replacedRecalls st = st.queue.filterMap panelSlot ++ st.waitingRecall.toList := rfl

theorem filterMap_panelSlot_host {queue : List QueuedOp} (h : ∀ q ∈ queue, isPanelOp q = false) :
    queue.filterMap panelSlot = [] := by
  refine List.filterMap_eq_nil_iff.2 fun q hq => ?_
  have host := h q hq
  rw [panelSlot]
  split
  · next at_panel => rw [isPanelOp, at_panel] at host; cases host
  · rfl

section Replaced

variable {before after : List QueuedOp} {tag : Byte}

theorem replacedRecalls_queued (hq : st.queue = before ++ ⟨tag, .panelRecall old⟩ :: after)
    (hh : ∀ q ∈ before ++ after, isPanelOp q = false) (hw : st.waitingRecall = none) : replacedRecalls st = [old] := by
  obtain ⟨hb, ha⟩ := List.forall_mem_append.1 hh
  rw [replacedRecalls_eq, hq, hw, List.filterMap_append, filterMap_panelSlot_host hb,
    List.filterMap_cons_some (f := panelSlot) (b := old) rfl, filterMap_panelSlot_host ha]
  rfl

theorem replacing_queued (hq : st.queue = before ++ ⟨tag, .panelRecall old⟩ :: after)
    (hh : ∀ q ∈ before ++ after, isPanelOp q = false) (hw : st.waitingRecall = none) :
    replacing slot st = { st with queue := before ++ after ++ [⟨0, .panelRecall slot⟩] } := by
  obtain ⟨hb, ha⟩ := List.forall_mem_append.1 hh
  have kept : st.queue.filter (fun q => !isPanelOp q) = before ++ after := by
    rw [hq, List.filter_append, List.filter_cons_of_neg (by exact Bool.false_ne_true), filter_host hb, filter_host ha]
  simp only [replacing, kept, unwanted, hw]

theorem replacedRecalls_host (hh : ∀ q ∈ st.queue, isPanelOp q = false) : replacedRecalls st = st.waitingRecall.toList := by
  rw [replacedRecalls_eq, filterMap_panelSlot_host hh, List.nil_append]

theorem replacing_host (hh : ∀ q ∈ st.queue, isPanelOp q = false) : replacing slot st = { st with
    queue := st.queue ++ [⟨0, .panelRecall slot⟩], waitingRecall := none
    locks := unwanted st.waitingRecall st.locks } := by
  rw [replacing, filter_host hh]

theorem replacing_alone (hh : ∀ q ∈ st.queue, isPanelOp q = false) (hw : st.waitingRecall = none) :
    replacing slot st = { st with queue := st.queue ++ [⟨0, .panelRecall slot⟩] } := by
  simp only [replacing, filter_host hh, unwanted, hw]

end Replaced

/-- Settles O55: Hold and Release by the slot's lock entry, and a panel recall by whether the store is idle and what it
replaces. -/
theorem locksHoldPanelRecalls : Obligations.LocksHoldPanelRecalls := by
  intro r s slot h256
  have hold : exec .hold s = dispatchCommand 0x30 serveHold s := rfl
  have release : exec .release s = dispatchCommand 0x31 serveRelease s := rfl
  refine ⟨fun hr hp => ?_, fun hr hp => ?_, fun rest hp hl hto hq hw hf => ?_, fun rest old hp hto hf => ?_⟩
  · obtain rfl := slotOf_eq hp h256
    refine ⟨fun far => request_refused hold hr (withUserSlot_outside far),
      fun fixed => request_refused hold hr (withUserSlot_factory fixed), fun h4 h63 => ⟨fun hn => ⟨fun room => ?_, fun full => ?_⟩,
        fun pre post n want hlocks hn => ⟨fun room => ?_, fun limit => ?_⟩⟩⟩
    · exact store_done hold hr (serveHold_new (s := taken s) h4 h63 hn room)
    · exact request_refused hold hr (serveHold_noEntry (s := taken s) h4 h63 hn full)
    · exact store_done hold hr (serveHold_counts (s := taken s) h4 h63 hlocks hn room)
    · exact request_refused hold hr (serveHold_limit (s := taken s) h4 h63 hlocks hn limit)
  · obtain rfl := slotOf_eq hp h256
    refine ⟨fun far => request_refused release hr (withSlot_outside far),
      fun h63 hn => request_refused release hr (serveRelease_notHeld (s := taken s) h63 hn),
      fun h63 pre post n want hlocks hn => ⟨fun more => ?_, ?_, ?_, ?_⟩⟩
    · exact store_done release hr (serveRelease_counts (s := taken s) h63 hlocks hn more)
    · rintro last rfl empty
      exact store_done release hr ((serveRelease_last (s := taken s) h63 hlocks hn last).trans (serveStore_of_nil empty))
    · rintro last rfl busy
      exact store_done release hr ((serveRelease_last (s := taken s) h63 hlocks hn last).trans (serveStore_busy (.inl busy)))
    · rintro u last rfl loaded idle empty rfl
      have starts := serveRelease_starts (s := taken s) h63 hlocks hn last ⟨loaded, empty, idle⟩
      refine ⟨fun d he => ?_, fun loc seq len prot hm lb he => ⟨fun bad => ?_, fun rec hread => ?_⟩⟩
      · exact store_done_offered release hr (starts.trans (startRecall_empty he))
      · exact store_done_offered release hr (starts.trans (startRecall_bad he bad))
      · exact store_done release hr (starts.trans (startRecall_reads he hread))
  · have starts := panelRecall_starts hp hto ⟨hl, hq, hf⟩ hw
    refine ⟨fun held => ?_, fun hn d he => ?_, fun hn loc seq len prot hm lb rec he hread => ?_⟩
    · rw [starts, startOp_panelRecall_held (s := withRecalls rest s) held]; rfl
    · rw [starts, startOp_panelRecall_free (s := withRecalls rest s) hn, startRecall_empty (s := withRecalls rest s) he]; rfl
    · rw [starts, startOp_panelRecall_free (s := withRecalls rest s) hn,
        startRecall_reads (s := withRecalls rest s) he hread]
      rfl
  · have waits := panelRecall_waits hp hto hf
    refine ⟨fun pre post tag hq hh hw => ?_, fun hh hw => ?_, fun hh hw => ?_⟩
    · rw [waits, replacedRecalls_queued hq hh hw, replacing_queued hq hh hw]; rfl
    · rw [waits, replacedRecalls_host hh, replacing_host hh, hw]; rfl
    · have nothing : replacedRecalls s.store = [] := (replacedRecalls_host hh).trans (by rw [hw]; rfl)
      rw [waits, nothing, replacing_alone hh hw]; rfl

end Sys2Proof.Machine.SetupStore
end

section
/-! The readout unit: what GetSegments replies, what a ReadWave payload says, what the checks of R188 decide, and what placing a
read's bursts leaves of it (R186 to R190). -/

namespace Sys2Proof.Machine.WaveformReadout

open FrontPanel

variable {r : Request} {s u : State} {q : ReadReq} {d : Descriptor} {x : SegRecord} {why : Reason}
  {serial : Word32} {channel first count flags : Nat}

@[simp] theorem taken_cap (s : State) : (taken s).cap = s.cap := rfl

/-! ## GetSegments (R186) -/

theorem inputByte_eq (i : InputSel) : BitVec.ofNat 8 (inputCode i) = if i = .adc then 0 else 1 := by
  cases i <;> rfl

theorem recordStateByte_eq (st : RecordState) :
    BitVec.ofNat 8 (recordStateCode st) = match st with | .filling => 0 | .complete => 1 | .damaged => 2 := by
  cases st <;> rfl

theorem maskResultByte_eq (m : MaskResult) :
    BitVec.ofNat 8 (maskResultCode m) =
      match m with | .unchecked => 0 | .pass => 1 | .fail => 2 | .skipped => 3 := by
  cases m <;> rfl

/-- A GetSegments payload asks for so many indices from the first. -/
structure SegmentsAsked (payload : List Byte) (first count : Nat) : Prop where
  first : fieldAt payload 0 2 = first
  count : byteAt payload 2 = count

theorem segmentsAsked_of_payload (hf : first < 65536) (hc : count < 256) :
    SegmentsAsked (leBytes 2 first ++ [BitVec.ofNat 8 count]) first count :=
  ⟨fieldAt_append (a := []) rfl hf, Nat.mod_eq_of_lt hc⟩

theorem serveGetSegments_outside (p : SegmentsAsked r.payload first count)
    (h : first < 1 ∨ 4096 < first ∨ count < 1 ∨ 64 < count) :
    serveGetSegments r s = replyRefused r.tag r.kind .badValue .none s := by
  simp only [serveGetSegments, p.first, p.count, if_pos h]

theorem serveGetSegments_inside (p : SegmentsAsked r.payload first count)
    (h : ¬ (first < 1 ∨ 4096 < first ∨ count < 1 ∨ 64 < count)) {recs : List SegRecord}
    (hr : recs = if s.cap.desc.isSome then selectRecords s.cap.table first count else []) :
    serveGetSegments r s = replyDone r.tag
      (summaryBytes s.cap.desc (finishedCount s) recs.length ++ recs.flatMap recordBytes) s := by
  simp only [serveGetSegments, p.first, p.count, if_neg h, hr]

/-! ## A ReadWave payload (R187) -/

/-- The payload of a ReadWave. -/
def readWaveBytes (serial : Word32) (channel first count flags : Nat) : List Byte :=
  leBytes 4 serial.toNat ++ leBytes 1 channel ++ leBytes 4 first ++ leBytes 2 count ++ leBytes 1 flags

/-- A ReadWave payload says these fields. -/
structure ReadAsked (payload : List Byte) (serial : Word32) (channel first count flags : Nat) : Prop where
  serial : fieldAt payload 0 4 = serial.toNat
  channel : byteAt payload 4 = channel
  first : fieldAt payload 5 4 = first
  count : fieldAt payload 9 2 = count
  flags : byteAt payload 11 = flags

theorem readAsked_of_payload (hch : channel < 256) (hf : first < 4294967296) (hc : count < 65536)
    (hfl : flags < 256) :
    ReadAsked (readWaveBytes serial channel first count flags) serial channel first count flags where
  serial := fieldAt_append (a := []) rfl serial.isLt
  channel := Nat.mod_eq_of_lt hch
  first := fieldAt_append (a := leBytes 4 serial.toNat ++ leBytes 1 channel)
    (c := leBytes 2 count ++ leBytes 1 flags) rfl hf
  count := fieldAt_append (a := leBytes 4 serial.toNat ++ leBytes 1 channel ++ leBytes 4 first)
    (c := leBytes 1 flags) rfl hc
  flags := Nat.mod_eq_of_lt hfl

theorem readReqOf_eq (p : ReadAsked r.payload serial channel first count flags) :
    readReqOf r = ⟨r.tag, serial, channel, first, count, decide (flags = 1)⟩ := by
  rw [readReqOf, p.serial, p.channel, p.first, p.count, p.flags, BitVec.ofNat_toNat, BitVec.setWidth_eq]; rfl

theorem readArrivalOk_iff {p : List Byte} (h : ReadAsked p serial channel first count flags) :
    readArrivalOk p = true ↔ channel ≤ 3 ∧ flags ≤ 1 ∧ 1 ≤ count ∧ count ≤ 2048 := by
  simp only [readArrivalOk, h.channel, h.flags, h.count, Bool.and_eq_true, decide_eq_true_iff, and_assoc]

/-! ## ReadWave on arrival (R187) -/

theorem serveReadWave_bad (h : ¬ readArrivalOk r.payload = true) :
    serveReadWave r s = replyRefused r.tag r.kind .badValue .none s := if_neg h

theorem serveReadWave_waits (h : readArrivalOk r.payload = true) (hb : s.rd.inFlight ≠ none ∨ s.rd.wait ≠ []) :
    serveReadWave r s = setReadout { s.rd with wait := s.rd.wait ++ [readReqOf r] } s := by
  have busy : ¬ (s.rd.inFlight.isNone && s.rd.wait.isEmpty) = true := by
    rw [Bool.and_eq_true, Option.isNone_iff_eq_none, List.isEmpty_iff]; tauto
  rw [serveReadWave, if_pos h, if_neg busy]

theorem serveReadWave_starts (h : readArrivalOk r.payload = true) (hf : s.rd.inFlight = none) (hw : s.rd.wait = []) :
    serveReadWave r s = startReads [readReqOf r] s := by
  rw [serveReadWave, if_pos h, hf, hw]; rfl

/-! ## The checks of R188, in their order -/

theorem checkRead_stale (h : s.cap.desc = none ∨ ∀ x ∈ s.cap.table, x.serial = some q.serial → x.state = .filling) :
    checkRead s q = .error .stale := by
  rcases h with no_desc | unfinished
  · rw [checkRead, no_desc]; cases finishedRecord s.cap.table q.serial <;> rfl
  · have no_record : finishedRecord s.cap.table q.serial = none :=
      List.find?_eq_none.2 fun x hx => by simpa using unfinished x hx
    rw [checkRead, no_record]

/-- The start of a read that passes its checks: its bursts in record order, and the pin over its segment's buffer (R189,
R190). -/
def readStart (d : Descriptor) (x : SegRecord) (q : ReadReq) : ReadStart where
  op := ⟨q, d.b, x.damaged.contains (q.channel + 1),
    runReads (blockAddr d x.buffer (q.channel + 1)) d.lEff d.b (x.start.getD 0) q.first q.count, [], []⟩
  pin := (x.buffer * perSegment d, (x.buffer + 1) * perSegment d - 1)

section Checks

variable (hd : s.cap.desc = some d) (hx : finishedRecord s.cap.table q.serial = some x)

include hd hx

theorem checkRead_badValue (h : q.channel + 1 ∉ d.channels ∨ (d.b = 2 ∧ 1024 < q.count)) :
    checkRead s q = .error .badValue := by
  rw [checkRead, hx, hd]
  rcases h with absent | long
  · simp [absent]
  · simp [long]

variable (hch : q.channel + 1 ∈ d.channels) (hb : d.b = 2 → q.count ≤ 1024)

include hch hb

/-- The checks that are left when the channel was captured and the count is no greater than b allows. -/
theorem checkRead_captured :
    checkRead s q =
      if d.lEff < q.first + q.count then .error .range
      else if x.state ≠ .complete ∧ q.damagedToo = false then .error .damaged
      else .ok (readStart d x q) := by
  have short : ¬ (d.b = 2 ∧ 1024 < q.count) := fun h => Nat.not_lt.2 (hb h.1) h.2
  have captured : ¬ d.channels.contains (q.channel + 1) = false := by simpa using hch
  rw [checkRead, hx, hd]
  exact (if_neg captured).trans (if_neg short)

theorem checkRead_range (h : d.lEff < q.first + q.count) : checkRead s q = .error .range :=
  (checkRead_captured hd hx hch hb).trans (if_pos h)

variable (hin : q.first + q.count ≤ d.lEff)

include hin

theorem checkRead_damaged (h : x.state = .damaged) (hq : q.damagedToo = false) :
    checkRead s q = .error .damaged := by
  have incomplete : x.state ≠ .complete := by rw [h]; decide
  rw [checkRead_captured hd hx hch hb, if_neg (Nat.not_lt.2 hin), if_pos ⟨incomplete, hq⟩]

theorem checkRead_passes (h : x.state = .complete ∨ q.damagedToo = true) :
    checkRead s q = .ok (readStart d x q) := by
  have allowed : ¬ (x.state ≠ .complete ∧ q.damagedToo = false) := by
    rintro ⟨incomplete, unasked⟩
    rcases h with complete | asked
    · exact incomplete complete
    · exact Bool.false_ne_true (unasked.symm.trans asked)
  rw [checkRead_captured hd hx hch hb, if_neg (Nat.not_lt.2 hin), if_neg allowed]

end Checks

/-! ## The start of a read (R188, R189) -/

theorem startReads_refused (h : checkRead s q = .error why) (hw : s.rd.wait = []) :
    startReads [q] s = replyRefused q.tag kindReadWave why .none s := by
  rw [startReads, h]
  exact congrArg (fun w => { replyRefused q.tag kindReadWave why .none s with rd := { s.rd with wait := w } }) hw.symm

theorem startReads_started {st : ReadStart} (h : checkRead s q = .ok st) :
    startReads [q] s = setReadout ⟨some st.op, some st.pin, []⟩ s := by
  rw [startReads, h]

/-- The start of reads writes no DRAM and leaves the capture controller alone. -/
theorem startReads_memory (qs : List ReadReq) (s : State) :
    (startReads qs s).dram = s.dram ∧ (startReads qs s).cap = s.cap := by
  induction qs generalizing s with
  | nil => exact ⟨rfl, rfl⟩
  | cons q rest ih =>
    rw [startReads]
    split
    · exact ih _
    · exact ⟨rfl, rfl⟩

/-! ## Placing bursts (R98, R190) -/

/-- What a read in flight is, however many of its bursts have been placed. -/
def readOf (o : ReadOp) : ReadReq × Nat × Bool × List BurstRead × List Byte :=
  (o.req, o.b, o.channelDamaged, o.placed ++ o.todo, o.got)

/-- The two readout units differ only in how many bursts of the read in flight have been placed. -/
structure SameRead (a b : Readout) : Prop where
  wait : b.wait = a.wait
  pin : b.pin = a.pin
  read : b.inFlight.map readOf = a.inFlight.map readOf

theorem fillReadout_sameRead (n : Nat) (s : State) : SameRead s.rd (fillReadout n s).rd := by
  induction n generalizing s with
  | zero => exact ⟨rfl, rfl, rfl⟩
  | succ n ih =>
    rw [fillReadout]
    split
    · split
      · next op hop =>
        split
        · next b rest htodo =>
          have later := ih { s with
            mem := { s.mem with readQ := s.mem.readQ ++ [{ addr := b.addr, write := none }] }
            rd := { s.rd with inFlight := some { op with todo := rest, placed := op.placed ++ [b] } } }
          refine ⟨later.wait, later.pin, later.read.trans ?_⟩
          simp [hop, readOf, htodo]
        · exact ⟨rfl, rfl, rfl⟩
      · exact ⟨rfl, rfl, rfl⟩
    · exact ⟨rfl, rfl, rfl⟩

theorem fillRaster_rd (n : Nat) (s : State) : (fillRaster n s).rd = s.rd := by
  induction n generalizing s with
  | zero => rfl
  | succ n ih =>
    rw [fillRaster]
    split
    · split
      · exact ih _
      · rfl
    · rfl

theorem countHead_rd (f : OverlayJob → OverlayJob) (s : State) : (countHead f s).rd = s.rd := by
  rw [countHead]; split <;> rfl

theorem scanNext_rd {m : MemReq} (h : scanNext s = some (m, u)) : u.rd = s.rd := by
  unfold scanNext at h
  extract_lets write src at h
  have write_rd (hw : write = some (m, u)) : u.rd = s.rd := by
    simp only [write] at hw
    split at hw
    · split at hw
      · cases hw; exact countHead_rd _ _
      · cases hw
    · cases hw
  split at h
  · split at h
    · cases h; rfl
    · exact write_rd h
  · exact write_rd h

theorem fillScan_rd (n : Nat) (s : State) : (fillScan n s).rd = s.rd := by
  induction n generalizing s with
  | zero => rfl
  | succ n ih =>
    rw [fillScan]
    split
    · split
      · next q placed h => exact (ih _).trans (scanNext_rd (u := placed) h)
      · rfl
    · rfl

theorem placeRequests_sameRead (s : State) : SameRead s.rd (placeRequests s).rd := by
  have same := fillReadout_sameRead readoutPlaces (fillRaster rasterPlaces (fillScan scanPlaces s))
  rwa [fillRaster_rd, fillScan_rd] at same

/-! ## ReadWave dispatched (R199) -/

/-- What becomes of the state in which a ReadWave has been served: the next hand-over begins and requests are placed. -/
def dispatched (u : State) : State := placeRequests (setLink (beginHandover u.link) u)

theorem readWave_run (h : InHandover 0x35 r s) : exec .readWave s = .next (dispatched (serveReadWave r (taken s))) :=
  dispatchAndPlace_inHandover h serveReadWave

theorem dispatched_link (u : State) : (dispatched u).link = beginHandover u.link := by
  rw [dispatched, placeRequests_placeOnly]; rfl

theorem dispatched_dram (u : State) : (dispatched u).dram = u.dram := by
  rw [dispatched, placeRequests_placeOnly]; rfl

theorem dispatched_cap (u : State) : (dispatched u).cap = u.cap := by
  rw [dispatched, placeRequests_placeOnly]; rfl

theorem dispatched_sameRead (u : State) : SameRead u.rd (dispatched u).rd :=
  placeRequests_sameRead (setLink (beginHandover u.link) u)

theorem dispatched_link_refused (hu : u = replyRefused r.tag r.kind why .none (taken s)) :
    (dispatched u).link = (answered s (refusedReply r (reasonCode why) [0, 0, 0])).link := by
  rw [dispatched_link, hu, beginHandover_of_none rfl]
  exact afterDispatch_handover { s.link with replies := s.link.replies ++ [_] } none

theorem dispatched_link_unanswered {rd : Readout} (hu : u = setReadout rd (taken s)) :
    (dispatched u).link = afterDispatch s.link := by
  rw [dispatched_link, hu, beginHandover_of_none rfl]
  exact afterDispatch_handover s.link none

/-- A request that fails a check of R188 is refused, and no read is in flight. -/
theorem dispatched_start_refused (hr : InHandover 0x35 r s) (tag : q.tag = r.tag) (idle : s.rd.inFlight = none)
    (empty : s.rd.wait = []) (h : checkRead (taken s) q = .error why) :
    (dispatched (startReads [q] (taken s))).link = (answered s (refusedReply r (reasonCode why) [0, 0, 0])).link ∧
      (dispatched (startReads [q] (taken s))).rd.inFlight = none := by
  obtain ⟨-, -, kind⟩ := hr
  have refused : startReads [q] (taken s) = replyRefused r.tag r.kind why .none (taken s) := by
    rw [startReads_refused h empty, tag, kind]; rfl
  have none_starts : (startReads [q] (taken s)).rd.inFlight = none := by rw [refused]; exact idle
  have same := (dispatched_sameRead (startReads [q] (taken s))).read
  rw [none_starts] at same
  exact ⟨dispatched_link_refused refused, Option.map_eq_none_iff.1 same⟩

/-- A read that passes the checks of R188 is in flight and unanswered, with its range pinned and its bursts placed or to be
placed (R189, R190). -/
theorem dispatched_start_passed {st : ReadStart} (h : checkRead (taken s) q = .ok st) :
    (dispatched (startReads [q] (taken s))).link = afterDispatch s.link ∧
      (dispatched (startReads [q] (taken s))).rd.pin = some st.pin ∧
      (dispatched (startReads [q] (taken s))).rd.inFlight.map readOf = some (readOf st.op) := by
  have same := dispatched_sameRead (startReads [q] (taken s))
  have started := startReads_started h
  rw [started] at same ⊢
  exact ⟨dispatched_link_unanswered rfl, same.pin, same.read⟩

/-- Settles O47: GetSegments by whether the run of indices may be asked for and whether there is a descriptor; ReadWave by
its arrival checks, by whether it waits, and by the first check of R188 that fails. -/
theorem segmentsAreReportedAndReadsStart : Obligations.SegmentsAreReportedAndReadsStart := by
  intro r s
  refine ⟨fun first count hr hf hc hp => ?_, fun serial channel first count flags q hr hch hf hc hfl hp hq => ?_⟩
  · have arm : exec .getSegments s = dispatchCommand 0x34 serveGetSegments s := rfl
    have asked : SegmentsAsked r.payload first count := hp ▸ segmentsAsked_of_payload hf hc
    refine ⟨fun outside => request_refused arm hr (serveGetSegments_outside asked outside), fun h1 h2 h3 h4 => ?_⟩
    have inside : ¬ (first < 1 ∨ 4096 < first ∨ count < 1 ∨ 64 < count) := by omega
    refine ⟨fun hd => ?_, fun d recs hd hrecs => ?_⟩
    · have none_selected : [] = if (taken s).cap.desc.isSome then selectRecords s.cap.table first count else [] := by
        rw [taken_cap, hd]; rfl
      refine (request_reported arm hr (serveGetSegments_inside asked inside none_selected)).trans ?_
      rw [taken_cap, hd]; rfl
    · have selected : recs = if (taken s).cap.desc.isSome then selectRecords s.cap.table first count else [] := by
        rw [taken_cap, hd, hrecs]; simp [selectRecords]
      refine (request_reported arm hr (serveGetSegments_inside asked inside selected)).trans ?_
      rw [taken_cap, hd, summaryBytes, inputByte_eq]
      congr 4
      refine List.flatMap_congr fun x _ => ?_
      rw [recordBytes, recordStateByte_eq, maskResultByte_eq]; rfl
  · have asked : ReadAsked r.payload serial channel first count flags := hp ▸ readAsked_of_payload hch hf hc hfl
    have spelled : readReqOf r = q := (readReqOf_eq asked).trans hq.symm
    have arrives_iff := readArrivalOk_iff asked
    have run := readWave_run hr
    refine ⟨fun bad => ?_, fun h3 h1 hc1 hc2 => ?_⟩
    · rw [serveReadWave_bad (s := taken s) (by rw [arrives_iff]; omega)] at run
      exact ⟨_, run, dispatched_link_refused rfl, (dispatched_sameRead _).wait, dispatched_dram _⟩
    · have arrives : readArrivalOk r.payload = true := arrives_iff.2 ⟨h3, h1, hc1, hc2⟩
      refine ⟨fun busy => ?_, fun idle empty => ?_⟩
      · rw [serveReadWave_waits (s := taken s) arrives busy, spelled] at run
        exact ⟨_, run, dispatched_link_unanswered rfl, (dispatched_sameRead _).wait, dispatched_dram _⟩
      · rw [serveReadWave_starts (s := taken s) arrives idle empty, spelled] at run
        have tag : q.tag = r.tag := by rw [hq]
        have refused {why : Reason} := dispatched_start_refused (why := why) hr tag idle empty
        have passed {st : ReadStart} := dispatched_start_passed (s := s) (q := q) (st := st)
        subst hq
        refine ⟨fun unfinished => ⟨_, run, refused (checkRead_stale unfinished)⟩, fun d x hd hx => ?_⟩
        obtain ⟨dram, cap⟩ := startReads_memory [_] (taken s)
        refine ⟨_, run, (dispatched_dram _).trans dram, (dispatched_cap _).trans cap,
          fun bad => (refused (checkRead_badValue hd hx bad)).1,
          fun captured short past => (refused (checkRead_range hd hx captured short past)).1,
          fun captured short inside damaged unasked => ?_, fun captured short inside allowed => ?_⟩
        · have not_asked : decide (flags = 1) = false := by rw [unasked]; rfl
          exact (refused (checkRead_damaged hd hx captured short inside damaged not_asked)).1
        · have allowed' := allowed.imp_right (decide_eq_true (p := flags = 1))
          obtain ⟨link, pin, read⟩ := passed (checkRead_passes hd hx captured short inside allowed')
          refine ⟨link, pin, read.trans ?_⟩
          rw [readOf, readStart, List.contains_eq_mem]; rfl

end Sys2Proof.Machine.WaveformReadout
end
